-- ==== Sys2Proof/Word.lean ====
section
/-! DEFINITION. Word.lean: the byte of the sector bus and numbers laid out as bytes, most significant byte first
(10 section 10.6). -/

namespace Sys2Proof

/-- One byte as it goes over the sector bus. -/
abbrev Byte := BitVec 8

/-- The number `n` as one byte. -/
def byteOf (n : Nat) : Byte := BitVec.ofNat 8 n

/-- The number `n` as `k` bytes, most significant byte first (10 section 10.6). -/
def beBytes : Nat → Nat → List Byte
  | 0, _ => []
  | k + 1, n => byteOf (n / 256 ^ k) :: beBytes k n

/-- The number that a list of bytes spells, most significant byte first (10 section 10.6). -/
def beNat : List Byte → Nat
  | [] => 0
  | b :: bs => b.toNat * 256 ^ bs.length + beNat bs

end Sys2Proof
end

