-- ==== Sys2Proof/Syntax.lean ====
section
/-! DEFINITION. Syntax.lean: the events a station takes, one constructor for each row of spec/opcode_table.json, and the
values they carry. Enumerations list their values in the manual's order, which is the order of the layouts of 10 section
10.6 ("counting from 0"). -/

namespace Sys2Proof

/-- Pace of the spoil station (07 R117). -/
inductive Pace where
  | free | slow | hold
  deriving DecidableEq, Repr

/-- Build state of a station (03 R39); `ringOpen` is the manual's OPEN. -/
inductive BuildState where
  | ringOpen | building | suspended
  deriving DecidableEq, Repr

/-- Mode of a thrust group (02 R24). -/
inductive GroupMode where
  | hold | advance | retracting | clear | pressing | tripped
  deriving DecidableEq, Repr

/-- Drive state (05 R78). -/
inductive DriveState where
  | absent | off | starting | running | stopping | stalled
  deriving DecidableEq, Repr

/-- Direction of the cutterhead (05 R78). -/
inductive Direction where
  | cw | ccw
  deriving DecidableEq, Repr

/-- Grout line state (08 R120). -/
inductive LineState where
  | absent | closed | armed | injecting | flushing | tripped
  deriving DecidableEq, Repr

/-- Action of a STEP notice (03 section 3.4). -/
inductive StepAction where
  | claim | release | placed | set
  deriving DecidableEq, Repr

/-- Cause of a trip (01 section 1.3). -/
inductive TripCause where
  | thrust | stall | cabStop
  deriving DecidableEq, Repr

/-- Role flags of a station (10 section 10.6). -/
structure Roles where
  screw : Bool
  erector : Bool
  drive : Bool
  line : Bool
  deriving DecidableEq, Repr

/-- Body of a STATE notice: the core that peers read (01 R3, 10 section 10.6) and the page it carries. -/
structure StateBody where
  roles : Roles
  ready : Bool
  ring : Nat
  build : BuildState
  index : Nat
  mode : GroupMode
  force : Nat
  advance : Nat
  drive : DriveState
  speed : Nat
  torque : Nat
  line : LineState
  volume : Nat
  /-- Chamber pressure; none is NO READING. -/
  chamber : Option Nat
  pace : Pace
  ownThrust : Bool
  ownStall : Bool
  tripInView : Bool
  blind : Bool
  alarms : BitVec 16
  holds : BitVec 16
  /-- Page number, 0 to 7. -/
  page : Nat
  /-- Bytes 23 to 31. -/
  detail : List Byte
  deriving DecidableEq, Repr

/-- The two senders of commands (11, opening): the cab console at address 14, the service terminal at address 15. -/
inductive CmdSource where
  | cab | service
  deriving DecidableEq, Repr

/-- What every COMMAND notice carries besides its number and operands: its source, whether its destination is all
stations (8) rather than the own address, and the tag chosen by the sender (11 R161, R164). -/
structure CmdHead where
  source : CmdSource
  toAll : Bool
  tag : Byte
  deriving DecidableEq, Repr

/-- A notice as read from the line, before the receive checks of 10 R155: the header fields, the body bytes that came,
the check word, and whether the notice came to its end. -/
structure RxNotice where
  cls : BitVec 2
  rank : BitVec 3
  source : BitVec 4
  dest : BitVec 4
  kind : BitVec 3
  len : BitVec 6
  body : List Byte
  check : BitVec 16
  complete : Bool
  deriving DecidableEq, Repr

/-- A reading of an analogue input: none is an input outside its measuring range (12 section 12.5). -/
abbrev Reading := Option Nat

/-- Which event takes the line-fault count to 16 (10 R154); of a foreign notice, whether it is a STATE (10 R152). -/
inductive FaultOccasion where
  | failedOffer
  | foreignNotice (isState : Bool)
  deriving DecidableEq, Repr

/-- Which event ends LISTENING (12 R168). -/
inductive ReadyOccasion where
  | expiry | completion
  deriving DecidableEq, Repr

/-- The events of a station, one constructor for each row of spec/opcode_table.json. A COMMAND carries its operand
bytes as they follow the tag, so that the form check of 11 R161 and the operand layouts of 11 section 11.3 are part of
its meaning. -/
inductive Instr where
  | startAdvance (h : CmdHead) (ops : List Byte)
  | stopAdvance (h : CmdHead) (ops : List Byte)
  | setAdvanceLimits (h : CmdHead) (ops : List Byte)
  | clearTripThrust (h : CmdHead) (ops : List Byte)
  | clearTripDrive (h : CmdHead) (ops : List Byte)
  | clearTripCabStop (h : CmdHead) (ops : List Byte)
  | setMargin (h : CmdHead) (ops : List Byte)
  | loadPlan (h : CmdHead) (ops : List Byte)
  | beginBuild (h : CmdHead) (ops : List Byte)
  | suspendBuild (h : CmdHead) (ops : List Byte)
  | resumeBuild (h : CmdHead) (ops : List Byte)
  | abandonBuild (h : CmdHead) (ops : List Byte)
  | discardPiece (h : CmdHead) (ops : List Byte)
  | startCutterhead (h : CmdHead) (ops : List Byte)
  | stopCutterhead (h : CmdHead) (ops : List Byte)
  | setDriveLimits (h : CmdHead) (ops : List Byte)
  | setFacePressure (h : CmdHead) (ops : List Byte)
  | setBalanceLimits (h : CmdHead) (ops : List Byte)
  | trainIn (h : CmdHead) (ops : List Byte)
  | trainOut (h : CmdHead) (ops : List Byte)
  | setPaceLevels (h : CmdHead) (ops : List Byte)
  | setGrout (h : CmdHead) (ops : List Byte)
  | armLine (h : CmdHead) (ops : List Byte)
  | closeLine (h : CmdHead) (ops : List Byte)
  | flushLine (h : CmdHead) (ops : List Byte)
  | setGroutTimes (h : CmdHead) (ops : List Byte)
  | setGroutMinimum (h : CmdHead) (ops : List Byte)
  | readRecord (h : CmdHead) (ops : List Byte)
  | readHistory (h : CmdHead) (ops : List Byte)
  | clearHistory (h : CmdHead) (ops : List Byte)
  | setRing (h : CmdHead) (ops : List Byte)
  | restart (h : CmdHead) (ops : List Byte)
  | stateArrival (src : Nat) (body : StateBody)
  | tripArrival (src : Nat) (cause : TripCause)
  | paceArrival (src : Nat) (pace : Pace)
  | stepArrival (src : Nat) (action : StepAction) (ring : Nat) (index : Nat)
  | foreignOwnAddressNotice (isState : Bool := false)
  | noticeDiscarded (n : RxNotice)
  | noticePeriodExpiry
  | controlSecond
  | driveInterval
  | stallTimerExpiry
  | beltSilenceExpiry
  | potLifeExpiry
  | flushTimerExpiry
  | retryWaitEnd
  | silenceCountReachingK
  | lineFault (by_ : FaultOccasion)
  | becomeReady (by_ : ReadyOccasion)
  | offerBegin
  | contentionLost
  | offerFailed
  | offerCompleted
  | strokeReading (r : Reading)
  | forceReading (r : Reading)
  | retractedLimitInput (active : Bool)
  | measuredSpeedReading (r : Reading)
  | torqueReading (r : Reading)
  | chamberPressureReading (r : Reading)
  | linePressureReading (r : Reading)
  | beltPulse
  | additivePulse
  | strokePulse
  | pieceInStrobe (piece : BitVec 3) (key : Bool)
  | seatedInput (level : Bool)
  | powerOnReset
  | pinReset
  | configurationRead (pins : BitVec 3) (bytes : List (Option Byte))
  | commandNotInCatalogue (h : CmdHead) (number : Byte) (ops : List Byte)
  deriving DecidableEq, Repr

end Sys2Proof
end

