-- ==== Sys2Proof/Decode.lean ====
section
/-! DEFINITION. Decode.lean: the events that a word spells by the bits of spec/opcode_table.json. The table gives no row
any bits ("fields" is empty and "fixed" is missing in all 69), so no word spells one (log 21). -/

namespace Sys2Proof

/-- The event a word spells by the table's bits: none, for every word. -/
def decodeTableWord (_nbits _w : Nat) : Option Instr := none

end Sys2Proof
end

