-- ==== Sys2Proof/Config.lean ====
section
/-! DEFINITION. Config.lean: the values a station takes from its configuration memory (10 section 10.6, 12 R166), and the
one value the manual leaves free. -/

namespace Sys2Proof

/-- The configured values of 10 section 10.6, as judged by 12 R167. -/
structure ConfigValues where
  /-- Sector count N. -/
  n : Nat
  roles : Roles
  /-- Face area A_f, dm². -/
  af : Nat
  /-- Annulus area A_a, dm². -/
  aa : Nat
  /-- Ring width W, 0.1 mm. -/
  w : Nat
  /-- Greatest stroke S_max, 0.1 mm. -/
  smax : Nat
  /-- In-situ density, kg/m³. -/
  rho : Nat
  /-- Belt weigher scale, kg per pulse. -/
  beltScale : Nat
  /-- Additive meter scale, kg per pulse. -/
  addScale : Nat
  /-- Screw volume per revolution V_rev, L. -/
  vrev : Nat
  /-- Greatest screw speed n_max, 0.1 rpm. -/
  nmax : Nat
  /-- Pump stroke volume V_s, mL. -/
  vs : Nat
  /-- Pump maximum, strokes per minute. -/
  pumpMax : Nat
  /-- Notice period T_n, ms. -/
  tn : Nat
  /-- Staleness limit k, notice periods. -/
  k : Nat
  /-- Thrust trip force, kN. -/
  tripForce : Nat
  /-- Pressing force, kN. -/
  pressForce : Nat
  deriving DecidableEq, Repr

/-- No role flag set. -/
def Roles.none : Roles := { screw := false, erector := false, drive := false, line := false }

/-- The configured values before a memory has been read: DESIGN CHOICE (log 7), all 0 and no role. No rule reads them in
STARTING or CONFIG FAULT (12 R165). -/
def ConfigValues.unread : ConfigValues :=
  { n := 0, roles := Roles.none, af := 0, aa := 0, w := 0, smax := 0, rho := 0, beltScale := 0, addScale := 0, vrev := 0,
    nmax := 0, vs := 0, pumpMax := 0, tn := 0, k := 0, tripForce := 0, pressForce := 0 }

/-- DESIGN CHOICE (log 13), a FREE VALUE: what the two-byte grout ratio field of record sheet 2 (10 R160) carries for a
ratio above 65,535. 09 R145 sets no upper bound on the ratio and the layout gives it two bytes. -/
opaque Config.groutRatioField : Nat → BitVec 16

end Sys2Proof
end

