-- ==== Sys2Proof/Machine/State.lean ====
section
/-! DEFINITION. Machine/State.lean: everything one station holds, as plain data, unit by unit as the manual's chapters
give it, with the values after a power-on reset. -/

namespace Sys2Proof.Machine

open Sys2Proof

/-- Reasons a step can stop with a fault: none. The manual describes no event that stops a station (INVENTORY.md,
Faults), so no rule raises one. -/
inductive Fault where
  deriving DecidableEq, Repr

/-- Reasons a step can be refused. -/
inductive Refusal where
  /-- Raised by an arm of exec that has no meaning yet, and by nothing else (safe: the step goes nowhere). -/
  | notModelled (mnemonic : String)
  deriving DecidableEq, Repr

/-- Lifecycle of a station (12 R165). -/
inductive Lifecycle where
  | starting | configFault | listening | ready
  deriving DecidableEq, Repr

/-! ### Field inputs and clock -/

/-- The field inputs as last read (02 R21, R27; 04 R71; 05 R79; 01 R7; 08 R120). -/
structure Inputs where
  stroke : Nat
  force : Nat
  retracted : Bool
  /-- Own chamber pressure cell; none is NO READING. -/
  chamber : Option Nat
  speed : Nat
  torque : Nat
  linePressure : Nat
  seated : Bool
  deriving DecidableEq, Repr

/-- DESIGN CHOICE (log 6): the field inputs at the first power-on; the manual gives no values for them. -/
def Inputs.initial : Inputs :=
  { stroke := 0, force := 0, retracted := false, chamber := none, speed := 0, torque := 0, linePressure := 0,
    seated := false }

/-- The model's clock in milliseconds (log 2) and the next expiry of each of the three periodic timers, none while the
timer is idle (00 Timers and events, 12 R165). -/
structure Clock where
  now : Nat
  noticeDue : Option Nat
  controlDue : Option Nat
  driveDue : Option Nat
  deriving DecidableEq, Repr

/-! ### Peer view (01) -/

/-- What is held of a peer that has been heard: the body of its last STATE, its age, and whether it is FRESH rather than
STALE (01 R2). -/
structure Heard where
  body : StateBody
  age : Nat
  fresh : Bool
  deriving DecidableEq, Repr

/-- One peer entry (01 R2): ABSENT while nothing is held. The pace field stands beside it (01 R5). -/
structure PeerEntry where
  held : Option Heard
  pace : Option Pace
  deriving DecidableEq, Repr

/-- An entry after a reset (01 R2). -/
def PeerEntry.absent : PeerEntry := { held := none, pace := none }

/-- A pair of the trip memory: source and cause (01 section 1.3). -/
abbrev TripPair := Nat × TripCause

/-- The peer view (01). -/
structure View where
  /-- Entries for addresses 0 to 7, in order; the own address's entry stays ABSENT. -/
  peers : List PeerEntry
  /-- Trip memory; the order of the list carries no meaning (log 18). -/
  trips : List TripPair
  blind : Bool
  /-- Heard marker. -/
  heard : Bool
  /-- Completion marker. -/
  completion : Bool
  /-- Silence count. -/
  silence : Nat
  screwConflict : Bool
  erectorConflict : Bool
  /-- Machine advance L_ring (01 R11). -/
  lring : Nat
  deriving DecidableEq, Repr

/-- The peer view after every kind of reset (01 R2, R11, R15, R17, R19). -/
def View.reset : View :=
  { peers := List.replicate 8 PeerEntry.absent, trips := [], blind := false, heard := false, completion := false,
    silence := 0, screwConflict := false, erectorConflict := false, lring := 0 }

/-! ### Thrust unit (02) -/

/-- The hold-reason set, one flag for each reason of 02 section 2.4, in the order of its table. -/
structure HoldSet where
  stopped : Bool
  build : Bool
  peerBuild : Bool
  pace : Bool
  grout : Bool
  cutterhead : Bool
  trip : Bool
  blind : Bool
  spoilStale : Bool
  strokeEnd : Bool
  deriving DecidableEq, Repr

/-- The set after every kind of reset: STOPPED alone (02 R31). -/
def HoldSet.reset : HoldSet :=
  { stopped := true, build := false, peerBuild := false, pace := false, grout := false, cutterhead := false,
    trip := false, blind := false, spoilStale := false, strokeEnd := false }

/-- The thrust unit (02). -/
structure Thrust where
  mode : GroupMode
  /-- Advance-this-ring. -/
  advance : Nat
  /-- Advance mark, held in an advance spell (02 R22). -/
  mark : Option Nat
  holds : HoldSet
  vlim : Nat
  vmax : Nat
  pmax : Nat
  deriving DecidableEq, Repr

/-- The thrust unit after every kind of reset (02 R23, R24, R31, R36, R37). -/
def Thrust.reset : Thrust :=
  { mode := .hold, advance := 0, mark := none, holds := HoldSet.reset, vlim := 0, vmax := 40, pmax := 300 }

/-! ### Build unit (03) -/

/-- Entry state of a plan entry (03 R40). -/
inductive EntryState where
  | empty | pending | claimed | placed | set
  deriving DecidableEq, Repr

/-- One entry of the ring plan (03 R39). A placeholder, in state EMPTY, has an empty cover set (log 23). -/
structure PlanEntry where
  piece : Nat
  key : Bool
  /-- Cover set, sectors in rising order. -/
  cover : List Nat
  state : EntryState
  deriving DecidableEq, Repr

/-- The build unit (03). A plan is held when `entries` is not empty; the entry count is its length. -/
structure Build where
  state : BuildState
  planRing : Nat
  entries : List PlanEntry
  /-- Progress index. -/
  index : Nat
  /-- Holding margin factor m. -/
  margin : Nat
  /-- The wait count of a running retry wait (03 R54). -/
  retry : Option Nat
  planMismatch : Bool
  marginLow : Bool
  deriving DecidableEq, Repr

/-- The build unit after every kind of reset (03 R39); the plan ring number of no plan is a DESIGN CHOICE (log 23). -/
def Build.reset : Build :=
  { state := .ringOpen, planRing := 0, entries := [], index := 0, margin := 1200, retry := none, planMismatch := false,
    marginLow := false }

/-! ### Erector unit (04) -/

/-- A piece record of the feeder queue (04 R65). -/
structure Piece where
  piece : Nat
  key : Bool
  arrival : Nat
  deriving DecidableEq, Repr

/-- Sequence state of the erector (04 section 4.2). -/
inductive SeqState where
  | standby | awaitingClear | placing | awaitingPress
  deriving DecidableEq, Repr

/-- The working entry (04 R65). -/
structure Working where
  ring : Nat
  index : Nat
  piece : Nat
  key : Bool
  cover : List Nat
  deriving DecidableEq, Repr

/-- The erector unit (04 R65). -/
structure Erector where
  /-- Feeder queue, head first. -/
  queue : List Piece
  /-- Arrival counter. -/
  arrival : Nat
  seq : SeqState
  working : Option Working
  feederEmpty : Bool
  feederMismatch : Bool
  feederOverfull : Bool
  deriving DecidableEq, Repr

/-- The erector unit after every kind of reset (04 R65). -/
def Erector.reset : Erector :=
  { queue := [], arrival := 0, seq := .standby, working := none, feederEmpty := false, feederMismatch := false,
    feederOverfull := false }

/-! ### Drive unit (05) -/

/-- The drive unit (05 R78). -/
structure Drive where
  state : DriveState
  target : Nat
  direction : Direction
  /-- Speed command. -/
  command : Nat
  trim : Int
  ramp : Nat
  stallLevel : Nat
  /-- Stall time, s. -/
  stallTime : Nat
  /-- Start of a running stall timer, ms. -/
  stallStart : Option Nat
  /-- Revolution accumulator. -/
  accumulator : Nat
  peakTorque : Nat
  deriving DecidableEq, Repr

/-- The drive unit after every kind of reset (05 R78). DESIGN CHOICE (log 7): it stands OFF until the role flags are read, at a
station without the DRIVE role too. -/
def Drive.reset : Drive :=
  { state := .off, target := 0, direction := .cw, command := 0, trim := 0, ramp := 100, stallLevel := 1500,
    stallTime := 3, stallStart := none, accumulator := 0, peakTorque := 0 }

/-! ### Screw unit (06) -/

/-- Screw state (06 R94). -/
inductive ScrewState where
  | stopped | running | buildHold
  deriving DecidableEq, Repr

/-- The screw unit (06 R93). The gate and the converter enable follow the state (06 R95) and stand in Outputs. -/
structure Screw where
  state : ScrewState
  command : Nat
  /-- Support valve open. -/
  support : Bool
  /-- Face pressure target P_t; none is unset. -/
  target : Option Nat
  band : Nat
  /-- Pressure gain K_p. -/
  gain : Nat
  sample : Nat
  /-- Start of a running belt-silence timer, ms. -/
  beltStart : Option Nat
  /-- Belt silence time, s (06 R102). -/
  beltTime : Nat
  pressureBand : Bool
  deriving DecidableEq, Repr

/-- The screw unit after every kind of reset (06 R93, R102). -/
def Screw.reset : Screw :=
  { state := .stopped, command := 0, support := false, target := none, band := 20, gain := 10, sample := 0,
    beltStart := none, beltTime := 30, pressureBand := false }

/-! ### Train unit (07) -/

/-- State of a car (07 R108). -/
inductive CarState where
  | waiting | filling | full
  deriving DecidableEq, Repr

/-- A car record (07 R108); its position is its place in the queue, counted from 1. -/
structure Car where
  capacity : Nat
  filled : Nat
  additive : Nat
  state : CarState
  flagAdditive : Bool
  flagOver : Bool
  flagShort : Bool
  deriving DecidableEq, Repr

/-- Grade of the pace reason TRAIN (07 R115). -/
inductive TrainGrade where
  | absent | slow | hold
  deriving DecidableEq, Repr

/-- The pace reasons (07 section 7.4). -/
structure PaceReasons where
  train : TrainGrade
  isOver : Bool
  pressureBlind : Bool
  beltSilent : Bool
  noTarget : Bool
  deriving DecidableEq, Repr

/-- The train unit (07 R107). -/
structure Train where
  cars : List Car
  /-- Train mass. -/
  mass : Nat
  /-- Overflow mass. -/
  overflow : Nat
  holdLevel : Nat
  slowLevel : Nat
  reasons : PaceReasons
  pace : Pace
  deriving DecidableEq, Repr

/-- The train unit after every kind of reset (07 R107, R115, R116; 06 R103, R104). PRESSURE BLIND is DEDUCED from 06 R101
(log 16): no P_c can be derived in STARTING. -/
def Train.reset : Train :=
  { cars := [], mass := 0, overflow := 0, holdLevel := 5000, slowLevel := 40000,
    reasons := { train := .hold, isOver := false, pressureBlind := true, beltSilent := false, noTarget := true },
    pace := .hold }

/-! ### Grout unit (08) -/

/-- One set of grout settings (08 R120). -/
structure GroutSet where
  /-- Window open point o. -/
  opens : Nat
  /-- Window close point c. -/
  closes : Nat
  /-- Target ratio. -/
  ratio : Nat
  /-- Pressure limit. -/
  limit : Nat
  deriving DecidableEq, Repr

/-- The grout unit (08 R120, R135). -/
structure Grout where
  line : LineState
  active : GroutSet
  /-- Pending settings. -/
  waiting : Option GroutSet
  /-- Carried tail. -/
  tail : Option Nat
  /-- Used marker. -/
  used : Bool
  /-- Pump rate. -/
  rate : Nat
  sample : Nat
  strokes : Nat
  volume : Nat
  /-- Start of a running pot-life timer, ms. -/
  potStart : Option Nat
  /-- Start of a running flush timer, ms. -/
  flushStart : Option Nat
  /-- Pot life, s. -/
  potLife : Nat
  /-- Flush duration, s. -/
  flushTime : Nat
  saturated : Bool
  setting : Bool
  /-- Grout minimum g_min. -/
  gmin : Nat
  deriving DecidableEq, Repr

/-- The grout unit after every kind of reset (08 R120, R135). DESIGN CHOICE (log 7): the line stands CLOSED until the role
flags are read, at a station without the LINE role too. -/
def Grout.reset : Grout :=
  { line := .closed, active := { opens := 0, closes := 0, ratio := 1150, limit := 350 }, waiting := none, tail := none,
    used := false, rate := 0, sample := 0, strokes := 0, volume := 0, potStart := none, flushStart := none,
    potLife := 1800, flushTime := 120, saturated := false, setting := false, gmin := 0 }

/-! ### Ring record unit (09) -/

/-- Opening cause of a ring record (09 R137). -/
inductive OpeningCause where
  | start | close | adopted | setRing | restarted
  deriving DecidableEq, Repr

/-- Drive part of a record (09 R139). -/
structure DrivePart where
  revolutions : Nat
  peakTorque : Nat
  atLimit : Bool
  deriving DecidableEq, Repr

/-- Grout part of a record (09 R139). -/
structure GroutPart where
  strokes : Nat
  volume : Nat
  machine : Option Nat
  lines : Option Nat
  ratio : Option Nat
  target : Option Nat
  underfill : Bool
  excess : Bool
  lineTripped : Bool
  lineSaturated : Bool
  atLimit : Bool
  deriving DecidableEq, Repr

/-- Spoil part of a record (09 R139). -/
structure SpoilPart where
  /-- Belt mass M_b. -/
  belt : Nat
  /-- Additive mass M_a. -/
  additive : Nat
  vex : Nat
  vrm : Nat
  ratio : Option Nat
  isOver : Bool
  isUnder : Bool
  negativeNet : Bool
  pressureBand : Bool
  pressureBlind : Bool
  massAtLimit : Bool
  deriving DecidableEq, Repr

/-- Build part of a record (09 R139). -/
structure BuildPart where
  entriesSet : Nat
  suspended : Bool
  abandoned : Bool
  caughtUp : Bool
  marginLow : Bool
  deriving DecidableEq, Repr

/-- A ring record (09 R137, R139). -/
structure Record where
  ring : Nat
  cause : OpeningCause
  ownAdvance : Nat
  machineAdvance : Nat
  advanceSeconds : Nat
  buildSeconds : Nat
  peakForce : Nat
  /-- Flag ADVANCE AT LIMIT. -/
  advanceAtLimit : Bool
  drive : Option DrivePart
  grout : Option GroutPart
  spoil : Option SpoilPart
  build : Option BuildPart
  deriving DecidableEq, Repr

/-- A drive part with each figure at 0 and its flag lowered (09 R137). -/
def DrivePart.fresh : DrivePart := { revolutions := 0, peakTorque := 0, atLimit := false }

/-- A grout part as it is opened (09 R137, R139). -/
def GroutPart.fresh : GroutPart :=
  { strokes := 0, volume := 0, machine := none, lines := none, ratio := none, target := none, underfill := false,
    excess := false, lineTripped := false, lineSaturated := false, atLimit := false }

/-- A spoil part as it is opened (09 R137, R139). -/
def SpoilPart.fresh : SpoilPart :=
  { belt := 0, additive := 0, vex := 0, vrm := 0, ratio := none, isOver := false, isUnder := false, negativeNet := false,
    pressureBand := false, pressureBlind := false, massAtLimit := false }

/-- A build part as a BEGIN BUILD opens it (09 R139). -/
def BuildPart.fresh : BuildPart :=
  { entriesSet := 0, suspended := false, abandoned := false, caughtUp := false, marginLow := false }

/-- The record that an event opens (09 R137), with the parts the roles give it (09 R139). -/
def Record.fresh (roles : Roles) (ring : Nat) (cause : OpeningCause) : Record :=
  { ring := ring, cause := cause, ownAdvance := 0, machineAdvance := 0, advanceSeconds := 0, buildSeconds := 0,
    peakForce := 0, advanceAtLimit := false,
    drive := if roles.drive then some DrivePart.fresh else none,
    grout := if roles.line then some GroutPart.fresh else none,
    spoil := if roles.screw then some SpoilPart.fresh else none,
    build := none }

/-- A pair of balance limits (09 R143). -/
structure Limits where
  lower : Nat
  upper : Nat
  deriving DecidableEq, Repr

/-- The ring record unit (09). -/
structure Records where
  /-- Ring number of the station. -/
  ring : Nat
  current : Record
  /-- Ring history, oldest first. -/
  history : List Record
  /-- Active balance limits. -/
  limits : Limits
  /-- Pending slot of balance limits. -/
  waitingLimits : Option Limits
  deriving DecidableEq, Repr

/-- The balance limits after every kind of reset (09 R143). -/
def Limits.reset : Limits := { lower := 920, upper := 1080 }

/-! ### Bus interface (10) and command results (11) -/

/-- Result of a command (10 section 10.6), with the named operand's position where the result names one. -/
inductive Result where
  | done
  | clamped (position : Nat)
  | deferred
  | notPermitted
  | notReady
  | notApplicable
  | outOfRange (position : Nat)
  | busy
  | planMismatch
  deriving DecidableEq, Repr

/-- A notice of the transmit queue (10 R157). All but a STATE have their contents fixed when they are queued. -/
inductive TxNotice where
  | state
  | trip (cause : TripCause)
  | pace (p : Pace)
  | step (action : StepAction) (ring : Nat) (index : Nat)
  | reply (dest : CmdSource) (number : Nat) (tag : Byte) (result : Result) (data : List Byte)
  deriving DecidableEq, Repr

/-- A place of the transmit queue: the notice, and whether its offer is in progress (10 R158). -/
structure QueueItem where
  notice : TxNotice
  offering : Bool
  deriving DecidableEq, Repr

/-- The header fields and body of an offer (10 section 10.6). -/
structure Frame where
  cls : Nat
  rank : Nat
  source : Nat
  dest : Nat
  kind : Nat
  body : List Byte
  deriving DecidableEq, Repr

/-- The bus interface (10). -/
structure Bus where
  queue : List QueueItem
  /-- The offer in progress. -/
  offer : Option Frame
  /-- Last STATE source; none is unset. -/
  lastSource : Option Nat
  /-- Line-fault count. -/
  faults : Nat
  lineFault : Bool
  renewal : Bool
  /-- Page count. -/
  page : Nat
  deriving DecidableEq, Repr

/-- The bus interface after every kind of reset (10 R152, R154, R157, R158). -/
def Bus.reset : Bus :=
  { queue := [], offer := none, lastSource := none, faults := 0, lineFault := false, renewal := false, page := 0 }

/-! ### Outputs (12 section 12.5) -/

/-- The extend valve: closed, open at a speed reference, or open in press mode (02 section 2.2). -/
inductive ExtendValve where
  | closed
  | reference (speed : Nat)
  | press
  deriving DecidableEq, Repr

/-- The output pins of 12 section 12.5. -/
structure Outputs where
  extend : ExtendValve
  /-- Retract valve open. -/
  retract : Bool
  /-- Lock engaged. -/
  lock : Bool
  driveEnable : Bool
  driveRef : Nat
  direction : Direction
  screwEnable : Bool
  screwRef : Nat
  /-- Discharge gate open. -/
  gate : Bool
  /-- Support valve open. -/
  support : Bool
  /-- Grout valve open. -/
  groutValve : Bool
  /-- Pump running. -/
  pump : Bool
  pumpRate : Nat
  /-- Flush valve open. -/
  flushValve : Bool
  erectorEnable : Bool
  status : Bool
  deriving DecidableEq, Repr

/-- The outputs in STARTING (12 R165). -/
def Outputs.starting : Outputs :=
  { extend := .closed, retract := false, lock := true, driveEnable := false, driveRef := 0, direction := .cw,
    screwEnable := false, screwRef := 0, gate := false, support := false, groutValve := false, pump := false,
    pumpRate := 0, flushValve := false, erectorEnable := false, status := false }

/-! ### The station -/

/-- Everything one station holds, and the queue of events that wait for it. -/
structure State where
  life : Lifecycle
  /-- Own address, the pin address (12 R166). -/
  own : Nat
  cfg : ConfigValues
  /-- Alarm flag CONFIG CLAMPED (12 R167). -/
  configClamped : Bool
  /-- Listen count (12 R168). -/
  listen : Nat
  /-- Probe marker (12 R168). -/
  probe : Bool
  clock : Clock
  inputs : Inputs
  view : View
  thrust : Thrust
  build : Build
  erector : Erector
  drive : Drive
  screw : Screw
  train : Train
  grout : Grout
  records : Records
  bus : Bus
  out : Outputs
  pending : List Instr
  deriving DecidableEq, Repr

/-- The station right after a power-on reset (12 R165, R170, and each unit's own reset values). DESIGN CHOICE (log 30): the
listen count is 0 and the probe marker clear before the entry to LISTENING clears them. -/
def State.reset : State :=
  { life := .starting, own := 0, cfg := ConfigValues.unread, configClamped := false, listen := 0, probe := false,
    clock := { now := 0, noticeDue := none, controlDue := none, driveDue := none },
    inputs := Inputs.initial, view := View.reset, thrust := Thrust.reset, build := Build.reset, erector := Erector.reset,
    drive := Drive.reset, screw := Screw.reset, train := Train.reset, grout := Grout.reset,
    records :=
      { ring := 0, current := Record.fresh Roles.none 0 .start, history := [], limits := Limits.reset,
        waitingLimits := none },
    bus := Bus.reset, out := Outputs.starting, pending := [] }

end Sys2Proof.Machine
end

