-- ==== Sys2Proof/Machine/Operands.lean ====
section
/-! DEFINITION. Machine/Operands.lean: the arithmetic of 00 R1, the clamps of 11 R163, the operand layouts of the command
catalogue (11 section 11.3) and the readings of the analogue inputs (12 section 12.5). -/

namespace Sys2Proof.Machine

open Sys2Proof

/-- `a / b` rounded to the nearest whole number, halves up: 00 R1 for quotients that are never negative. -/
def roundNat (a b : Nat) : Nat := (2 * a + b) / (2 * b)

/-- `a / b` rounded to the nearest whole number, halves away from zero (00 R1). -/
def roundInt (a : Int) (b : Nat) : Int :=
  if 0 ≤ a then (roundNat a.toNat b : Int) else -(roundNat (-a).toNat b : Int)

/-- The ceiling of `a / b` (00 R1). -/
def ceilDiv (a b : Nat) : Nat := (a + (b - 1)) / b

/-- A value outside its range replaced by the nearer bound (11 R163). -/
def clamp (lo hi v : Nat) : Nat := max lo (min v hi)

/-- A signed value clamped to the range from `-b` to `b` (05 R84). -/
def clampSym (b v : Int) : Int := max (-b) (min v b)

/-- The rounded mean of the values, absent when there are none (01 R7, R9, R10, R11). -/
def meanOf (vs : List Nat) : Option Nat :=
  match vs with
  | [] => none
  | _ => some (roundNat vs.sum vs.length)

/-- The position of the first operand whose used value differs from the given one (11 R163). -/
def firstChanged : Nat → List (Nat × Nat) → Option Nat
  | _, [] => none
  | i, (given, used) :: rest => if given = used then firstChanged (i + 1) rest else some i

/-- The result of a setpoint command that is taken, from the pairs of given and used operands in the catalogue's order
(11 R163). -/
def setpointResult (owner : Result) (pairs : List (Nat × Nat)) : Result :=
  match firstChanged 0 pairs with
  | some p => .clamped p
  | none => owner

/-- The operand fields of a command body, from their sizes in bytes; none unless the bytes have exactly that length
(11 R161, form check). -/
def splitFields : List Nat → List Byte → Option (List Nat)
  | [], [] => some []
  | [], _ :: _ => none
  | k :: ks, bs => if bs.length < k then none else (splitFields ks (bs.drop k)).map (beNat (bs.take k) :: ·)

/-- Operand `i` of the fields. -/
def arg (args : List Nat) (i : Nat) : Nat := args.getD i 0

/-- The sizes of the operand fields of LOAD PLAN: ring, count, and two bytes for each entry of the count it carries
(11 R161). -/
def planSizes (ops : List Byte) : List Nat :=
  2 :: 1 :: List.replicate (2 * (ops.getD 2 0).toNat) 1

/-- Bit `i` of a number. -/
def bitOf (v i : Nat) : Bool := v / 2 ^ i % 2 = 1

/-- The sectors of a cover byte, bit s for sector s (11 section 11.3). -/
def coverSectors (b : Nat) : List Nat := [0, 1, 2, 3, 4, 5, 6, 7].filter (bitOf b)

/-- One entry of LOAD PLAN from its piece byte and cover byte: bit 7 placeholder, bit 6 KEY, bits 2 to 0 type. A
placeholder's other bits are not read (11 section 11.3). -/
def planEntry (piece cover : Nat) : PlanEntry :=
  if bitOf piece 7 then { piece := 0, key := false, cover := [], state := .empty }
  else { piece := piece % 8, key := bitOf piece 6, cover := coverSectors cover, state := .pending }

/-- The entries that the fields after the count spell. -/
def planEntries : List Nat → List PlanEntry
  | p :: c :: rest => planEntry p c :: planEntries rest
  | _ => []

/-- A reading held to the quantity's greatest value (02 R21, 05 R79, 08 R120); an input outside its measuring range is
taken as `failed`. -/
def readingOr (failed greatest : Nat) : Reading → Nat
  | none => failed
  | some v => min v greatest

end Sys2Proof.Machine
end

