-- ==== Sys2Proof/Machine/Flags.lean ====
section
/-! DEFINITION. Machine/Flags.lean: flag sets and the positions of enumerated values, as the layouts of 10 section 10.6
carry them. -/

namespace Sys2Proof.Machine

open Sys2Proof

/-- A flag set of `width` bits, the first flag in the highest bit (10 section 10.6). -/
def flagSet : Nat → List Bool → Nat
  | _, [] => 0
  | width, f :: fs => (if f then 2 ^ (width - 1) else 0) + flagSet (width - 1) fs

/-- One bit. -/
def bit (b : Bool) : Nat := if b then 1 else 0

/-- Position of a pace. -/
def paceCode : Pace → Nat
  | .free => 0 | .slow => 1 | .hold => 2

/-- Position of a build state. -/
def buildCode : BuildState → Nat
  | .ringOpen => 0 | .building => 1 | .suspended => 2

/-- Position of a group mode. -/
def modeCode : GroupMode → Nat
  | .hold => 0 | .advance => 1 | .retracting => 2 | .clear => 3 | .pressing => 4 | .tripped => 5

/-- Position of a drive state. -/
def driveCode : DriveState → Nat
  | .absent => 0 | .off => 1 | .starting => 2 | .running => 3 | .stopping => 4 | .stalled => 5

/-- Position of a direction. -/
def directionCode : Direction → Nat
  | .cw => 0 | .ccw => 1

/-- Position of a line state. -/
def lineCode : LineState → Nat
  | .absent => 0 | .closed => 1 | .armed => 2 | .injecting => 3 | .flushing => 4 | .tripped => 5

/-- Position of a STEP action. -/
def stepCode : StepAction → Nat
  | .claim => 0 | .release => 1 | .placed => 2 | .set => 3

/-- Position of a trip cause. -/
def tripCode : TripCause → Nat
  | .thrust => 0 | .stall => 1 | .cabStop => 2

/-- Position of a sequence state. -/
def seqCode : SeqState → Nat
  | .standby => 0 | .awaitingClear => 1 | .placing => 2 | .awaitingPress => 3

/-- Position of a screw state. -/
def screwCode : ScrewState → Nat
  | .stopped => 0 | .running => 1 | .buildHold => 2

/-- Position of a TRAIN grade. -/
def gradeCode : TrainGrade → Nat
  | .absent => 0 | .slow => 1 | .hold => 2

/-- Position of an opening cause. -/
def causeCode : OpeningCause → Nat
  | .start => 0 | .close => 1 | .adopted => 2 | .setRing => 3 | .restarted => 4

/-- Result number of a REPLY, its low 4 bits (10 section 10.6). -/
def resultCode : Result → Nat
  | .done => 0 | .clamped _ => 1 | .deferred => 2 | .notPermitted => 3 | .notReady => 4 | .notApplicable => 5
  | .outOfRange _ => 6 | .busy => 7 | .planMismatch => 8

/-- Position of the named operand, the high 4 bits of the result byte; 0 where the result names none (11 R164). -/
def resultPosition : Result → Nat
  | .clamped p => p
  | .outOfRange p => p
  | _ => 0

/-- Value at a position of a list of values, none outside the list. -/
def decodeAt {α : Type} (values : List α) (code : Nat) : Option α := values[code]?

/-- The paces in their order. -/
def paceValues : List Pace := [.free, .slow, .hold]

/-- The build states in their order. -/
def buildValues : List BuildState := [.ringOpen, .building, .suspended]

/-- The group modes in their order. -/
def modeValues : List GroupMode := [.hold, .advance, .retracting, .clear, .pressing, .tripped]

/-- The drive states in their order. -/
def driveValues : List DriveState := [.absent, .off, .starting, .running, .stopping, .stalled]

/-- The line states in their order. -/
def lineValues : List LineState := [.absent, .closed, .armed, .injecting, .flushing, .tripped]

/-- The STEP actions in their order. -/
def stepValues : List StepAction := [.claim, .release, .placed, .set]

/-- The trip causes in their order. -/
def tripValues : List TripCause := [.thrust, .stall, .cabStop]

/-- ROLE CONFLICT is raised while either conflict holds (01 R20). -/
def roleConflict (s : State) : Bool := s.view.screwConflict || s.view.erectorConflict

/-- The station alarm flags in the order of STATE bytes 19 and 20 (10 section 10.6). -/
def alarmFlags (s : State) : List Bool :=
  [s.configClamped, roleConflict s, s.build.planMismatch, s.build.marginLow, s.erector.feederMismatch,
   s.erector.feederEmpty, s.erector.feederOverfull, s.grout.saturated, s.grout.setting, s.screw.pressureBand]

/-- The hold reasons in the order of the table of 02 section 2.4. -/
def holdFlags (h : HoldSet) : List Bool :=
  [h.stopped, h.build, h.peerBuild, h.pace, h.grout, h.cutterhead, h.trip, h.blind, h.spoilStale, h.strokeEnd]

/-- The hold-reason set is empty (02 R25). -/
def holdsEmpty (h : HoldSet) : Bool := !(holdFlags h).any id

/-- The flags of a record in the order of sheet 1 (10 R160); the flags of an absent part are sent as 0,
and so are UNDERFILL and EXCESS of a record still open (log 12). -/
def recordFlags (r : Record) : List Bool :=
  let g (f : GroutPart → Bool) : Bool := (r.grout.map f).getD false
  let p (f : SpoilPart → Bool) : Bool := (r.spoil.map f).getD false
  let b (f : BuildPart → Bool) : Bool := (r.build.map f).getD false
  [r.advanceAtLimit, (r.drive.map DrivePart.atLimit).getD false, g GroutPart.underfill, g GroutPart.excess,
   g GroutPart.lineTripped, g GroutPart.lineSaturated, g GroutPart.atLimit, p SpoilPart.isOver, p SpoilPart.isUnder,
   p SpoilPart.negativeNet, p SpoilPart.pressureBand, p SpoilPart.pressureBlind, p SpoilPart.massAtLimit,
   b BuildPart.suspended, b BuildPart.abandoned, b BuildPart.caughtUp, b BuildPart.marginLow]

end Sys2Proof.Machine
end

