-- ==== Sys2Proof/Machine/PeerFigures.lean ====
section
/-! DEFINITION. Machine/PeerFigures.lean: the derived machine quantities of 01 section 1.2, evaluated anew from the FRESH
entries and the own values each time they are used (01 R6), and the conditions the units build on them. -/

namespace Sys2Proof.Machine

open Sys2Proof

/-- The units run: the station is LISTENING or READY (01 section 1.1, 12 R168). -/
def State.running (s : State) : Bool := s.life = .listening || s.life = .ready

/-- The entry of an address (01 R2). -/
def entryOf (s : State) (a : Nat) : PeerEntry := s.view.peers.getD a PeerEntry.absent

/-- The body of a peer that is FRESH; the own address is no peer (01 R2, R6). -/
def freshBody (s : State) (a : Nat) : Option StateBody :=
  if a = s.own then none
  else
    match (entryOf s a).held with
    | some h => if h.fresh then some h.body else none
    | none => none

/-- The FRESH peers, with their addresses in rising order. -/
def freshPeers (s : State) : List (Nat × StateBody) :=
  [0, 1, 2, 3, 4, 5, 6, 7].filterMap (fun a => (freshBody s a).map (fun b => (a, b)))

/-- A source whose notices the peer view takes: below the own N and not the own address (01 R2). -/
def takenSource (s : State) (src : Nat) : Bool := src < s.cfg.n && src ≠ s.own

/-- The crown set: sectors N-1, 0 and 1 (01 R7). -/
def crownSet (s : State) : List Nat := [s.cfg.n - 1, 0, 1]

/-- The reading of one sector of the crown set, where it counts (01 R7). -/
def crownReading (s : State) (a : Nat) : Option Nat :=
  if a = s.own then s.inputs.chamber else (freshBody s a).bind StateBody.chamber

/-- The control pressure P_c, absent when no reading counts (01 R7). -/
def controlPressure (s : State) : Option Nat := meanOf ((crownSet s).filterMap (crownReading s))

/-- The modes whose force counts as holding (01 R8). -/
def holdsFace : GroupMode → Bool
  | .hold | .advance | .pressing | .tripped => true
  | .retracting | .clear => false

/-- The available holding force excluding self (01 R8). -/
def availableForce (s : State) : Nat :=
  (((freshPeers s).filter (fun p => holdsFace p.2.mode)).map (fun p => p.2.force)).sum

/-- The mean drive torque over the RUNNING drives in view, the own included (01 R9). -/
def meanTorque (s : State) : Option Nat :=
  meanOf ((if s.drive.state = .running then [s.inputs.torque] else [])
    ++ ((freshPeers s).filter (fun p => p.2.drive = .running)).map (fun p => p.2.torque))

/-- The cutterhead speed for penetration, n (01 R10). -/
def penetrationSpeed (s : State) : Nat :=
  if s.drive.state = .absent then
    (meanOf (((freshPeers s).filter (fun p => p.2.drive = .running)).map (fun p => p.2.speed))).getD 0
  else s.inputs.speed

/-- The mean of advance-this-ring over the stations seen on the own ring, the own included (01 R11). -/
def ringMean (s : State) : Nat :=
  (meanOf (s.thrust.advance
    :: ((freshPeers s).filter (fun p => p.2.ring = s.records.ring)).map (fun p => p.2.advance))).getD 0

/-- A line that is ready to take its share of the annulus (01 R12). -/
def lineReady : LineState → Bool
  | .armed | .injecting => true
  | _ => false

/-- The grout-ready count (01 R12). -/
def groutReady (s : State) : Nat :=
  bit (lineReady s.grout.line) + ((freshPeers s).filter (fun p => lineReady p.2.line)).length

/-- The lowest of a list of addresses. -/
def lowestOf : List Nat → Option Nat
  | [] => none
  | a :: as =>
    match lowestOf as with
    | none => some a
    | some b => some (min a b)

/-- The spoil station in view: the lowest address that carries SCREW, the own included (01 R13). -/
def spoilStation (s : State) : Option Nat :=
  lowestOf ((if s.cfg.roles.screw then [s.own] else [])
    ++ ((freshPeers s).filter (fun p => p.2.roles.screw)).map Prod.fst)

/-- The spoil station's pace, absent with no spoil station in view (01 R13, R5). -/
def spoilPace (s : State) : Option Pace :=
  match spoilStation s with
  | none => none
  | some a => if a = s.own then some s.train.pace else (entryOf s a).pace

/-- The erector station in view: the lowest address that carries ERECTOR, the own included (03 R47). -/
def erectorStation (s : State) : Option Nat :=
  lowestOf ((if s.cfg.roles.erector then [s.own] else [])
    ++ ((freshPeers s).filter (fun p => p.2.roles.erector)).map Prod.fst)

/-- Peer building holds (01 R14). -/
def peerBuilding (s : State) : Bool := (freshPeers s).any (fun p => p.2.build ≠ .ringOpen)

/-- Trip in view (01 section 1.3). -/
def tripInView (s : State) : Bool := !s.view.trips.isEmpty

/-- A FRESH peer of lower address carries the SCREW role flag (01 R19). -/
def lowerScrew (s : State) : Bool := (freshPeers s).any (fun p => p.1 < s.own && p.2.roles.screw)

/-- A FRESH peer of lower address carries the ERECTOR role flag (01 R20). -/
def lowerErector (s : State) : Bool := (freshPeers s).any (fun p => p.1 < s.own && p.2.roles.erector)

/-- A drive is RUNNING in view (06 R94). -/
def driveInView (s : State) : Bool :=
  s.drive.state = .running || (freshPeers s).any (fun p => p.2.drive = .running)

/-- The start conditions of the drive (05 R80). -/
def startConditions (s : State) : Bool :=
  s.build.state = .ringOpen && !peerBuilding s && (spoilStation s).isSome && !tripInView s && !s.view.blind

/-- The required holding force F_req at a control pressure (03 R51). -/
def requiredForce (s : State) (pc : Nat) : Nat := ceilDiv (pc * s.cfg.af * s.build.margin) 100000

/-- The margin is met (03 R51). -/
def marginMet (s : State) : Bool :=
  match controlPressure s with
  | none => false
  | some pc => requiredForce s pc ≤ availableForce s

/-- The entry at an index of the own plan copy (03 R39). -/
def planAt (s : State) (i : Nat) : Option PlanEntry := s.build.entries[i]?

/-- The state of the entry at the progress index, none when the plan has no such entry. -/
def currentEntryState (s : State) : Option EntryState := (planAt s s.build.index).map PlanEntry.state

/-- The own sector lies in the cover set of the entry at the progress index (03 R52). -/
def ownCovered (s : State) : Bool :=
  match planAt s s.build.index with
  | some e => e.cover.contains s.own
  | none => false

/-- The own group is RETRACTING or CLEAR. -/
def withdrawn (s : State) : Bool := s.thrust.mode = .retracting || s.thrust.mode = .clear

/-- The group of a sector is seen in a mode (04 R69). -/
def seenIn (s : State) (m : GroupMode) (a : Nat) : Bool :=
  if a = s.own then s.thrust.mode = m
  else
    match freshBody s a with
    | some b => b.mode = m
    | none => false

/-- The window part and the tail part of 08 R124 on an advance `a`. -/
def windowOpen (g : GroutSet) (tail : Option Nat) (a : Nat) : Bool :=
  let windowPart : Bool :=
    if g.opens < g.closes then g.opens ≤ a && a < g.closes
    else if g.opens = g.closes then g.opens = 0
    else g.opens ≤ a
  let tailPart : Bool :=
    match tail with
    | none => false
    | some t => a < t
  windowPart || tailPart

/-- The injection condition of 08 R123. -/
def injectionCondition (s : State) : Bool :=
  s.thrust.mode = .advance && windowOpen s.grout.active s.grout.tail s.thrust.advance

/-- Free capacity F: capacity minus filled mass over the cars that are not FULL (07 R115). -/
def freeCapacity (cars : List Car) : Nat :=
  ((cars.filter (fun c => c.state ≠ .full)).map (fun c => c.capacity - c.filled)).sum

/-- The grade of the pace reason TRAIN (07 R115). -/
def trainGrade (t : Train) : TrainGrade :=
  let f := freeCapacity t.cars
  if f ≤ t.holdLevel then .hold else if f ≤ t.slowLevel then .slow else .absent

/-- The pace that the reasons give, SCREW conflict first (07 R117). -/
def paceOf (conflict : Bool) (r : PaceReasons) : Pace :=
  if conflict then .hold
  else if r.train = .hold || r.pressureBlind || r.beltSilent || r.noTarget then .hold
  else if r.train = .slow || r.isOver then .slow
  else .free

/-- The screw state that 06 R94 chooses. -/
def screwChoice (s : State) : ScrewState :=
  if s.life ≠ .ready || s.view.screwConflict then .stopped
  else if s.build.state ≠ .ringOpen || peerBuilding s then .buildHold
  else if s.screw.target.isSome && driveInView s && !tripInView s && !s.view.blind && !s.train.reasons.pressureBlind
  then .running
  else .stopped

/-- The support valve of 06 R99 at an evaluation, from how it stands. -/
def supportChoice (target : Option Nat) (band : Nat) (pc : Option Nat) (stands : Bool) : Bool :=
  match target, pc with
  | some t, some p => if p + band < t then true else if t ≤ p then false else stands
  | _, _ => false

/-- The advance speed limit of 02 R36. -/
def limitOf (s : State) : Nat :=
  let limit := min s.thrust.vmax (s.thrust.pmax * penetrationSpeed s / 1000)
  if spoilPace s = some .slow then limit / 2 else limit

/-- The reasons of the hold-reason set other than STOPPED, each while its cause holds (02 R32 to R35). -/
def holdsOf (s : State) : HoldSet :=
  { stopped := s.thrust.holds.stopped
    build := s.build.state ≠ .ringOpen
    peerBuild := peerBuilding s
    pace := spoilPace s = some .hold
    grout := groutReady s < s.grout.gmin
    cutterhead :=
      if s.drive.state = .absent then !(freshPeers s).any (fun p => p.2.drive = .running)
      else s.drive.state ≠ .running
    trip := tripInView s
    blind := s.view.blind
    spoilStale := (spoilStation s).isNone
    strokeEnd := s.cfg.smax ≤ s.inputs.stroke }

/-- Excavated volume V_ex (09 R141). -/
def excavated (s : State) : Nat := s.cfg.af * s.view.lring

/-- Removed in-situ volume V_rm from the two masses (09 R141). -/
def removed (s : State) (belt additive : Nat) : Nat :=
  if belt ≤ additive then 0 else roundNat ((belt - additive) * 1000000) s.cfg.rho

/-- Balance ratio, absent while V_ex is below V_min (09 R141). -/
def balanceRatio (s : State) (vex vrm : Nat) : Option Nat :=
  if vex < s.cfg.af * 1000 then none else some (min (vrm * 1000 / vex) 4095)

end Sys2Proof.Machine
end

