-- ==== Sys2Proof/Machine/Ops.lean ====
section
/-! DEFINITION. Machine/Ops.lean: the named operations the events are made of: the transmit queue (10 R158, R159), the
thrust group's modes and requests (02 R24 to R28), the trip memory and BLIND (01 R15 to R18), the suspension of a build
(03 R46), the grout line's states (08 R121), and the flags of the ring record (09 R139). -/

namespace Sys2Proof.Machine

open Sys2Proof

/-! ### Transmit queue -/

/-- Class of a notice (10 R155, table of kinds). -/
def noticeClass : TxNotice → Nat
  | .trip _ => 0
  | .pace _ | .step _ _ _ | .reply _ _ _ _ _ => 1
  | .state => 2

/-- A notice takes its place by class among those that wait, behind those of its own class; the notice whose offer is in
progress stays where it is (10 R158). -/
def insertNotice (n : TxNotice) : List QueueItem → List QueueItem
  | [] => [{ notice := n, offering := false }]
  | x :: xs =>
    if x.offering || noticeClass x.notice ≤ noticeClass n then x :: insertNotice n xs
    else { notice := n, offering := false } :: x :: xs

/-- A STATE that waits and is not being offered. -/
def waitingState (x : QueueItem) : Bool := x.notice = .state && !x.offering

/-- A class 1 notice that is not being offered. -/
def waitingClassOne (x : QueueItem) : Bool := noticeClass x.notice = 1 && !x.offering

/-- The queue without the newest item that satisfies `p`. -/
def dropNewest (p : QueueItem → Bool) (q : List QueueItem) : List QueueItem := (q.reverse.eraseP p).reverse

/-- The queue after a TRIP, PACE, STEP or REPLY is to be queued (10 R158, R159). -/
def queueAfter (n : TxNotice) (q : List QueueItem) : List QueueItem :=
  if q.length < 6 then insertNotice n q
  else if q.any waitingState then insertNotice n (q.eraseP waitingState)
  else if noticeClass n = 0 && q.any waitingClassOne then insertNotice n (dropNewest waitingClassOne q)
  else q

/-- Queue a TRIP, PACE, STEP or REPLY (10 R158, R159). -/
def enqueue (n : TxNotice) (s : State) : State := { s with bus := { s.bus with queue := queueAfter n s.bus.queue } }

/-- Queue a STATE at a notice-period expiry (10 R158). -/
def queueState (s : State) : State :=
  if s.bus.queue.any waitingState then s
  else if s.bus.queue.any (fun x => x.notice = .state) then { s with bus := { s.bus with renewal := true } }
  else if s.bus.queue.length < 6 then { s with bus := { s.bus with queue := insertNotice .state s.bus.queue } }
  else s

/-! ### Thrust group -/

/-- Change of the group mode. An entry into ADVANCE begins an advance spell with its mark at the stroke (02 R22); leaving
RETRACTING and CLEAR lowers MARGIN LOW (03 R53). -/
def setMode (m : GroupMode) (s : State) : State :=
  { s with
    thrust :=
      { s.thrust with
        mode := m
        mark :=
          if m = .advance then (if s.thrust.mode = .advance then s.thrust.mark else some s.inputs.stroke) else none }
    build := { s.build with marginLow := s.build.marginLow && (m = .retracting || m = .clear) } }

/-- The RETRACT request (02 R26), on to CLEAR at once with the retracted-limit input active (02 R27). -/
def retractRequest (s : State) : State :=
  match s.thrust.mode with
  | .hold => setMode (if s.inputs.retracted then .clear else .retracting) s
  | _ => s

/-- The PRESS request (02 R26), on to HOLD at once with the force at the pressing force (02 R28). -/
def pressRequest (s : State) : State :=
  match s.thrust.mode with
  | .hold | .retracting | .clear =>
    if s.cfg.pressForce ≤ s.inputs.force then setMode .hold (setMode .pressing s) else setMode .pressing s
  | _ => s

/-- The PRESS request that an event makes when the own group is RETRACTING or CLEAR. -/
def pressIfWithdrawn (s : State) : State := if withdrawn s then pressRequest s else s

/-! ### Flags of the ring record -/

/-- Change the build part of the current record, where there is one. -/
def onBuildPart (f : BuildPart → BuildPart) (s : State) : State :=
  { s with
    records := { s.records with current := { s.records.current with build := s.records.current.build.map f } } }

/-- Change the spoil part of the current record, where there is one. -/
def onSpoilPart (f : SpoilPart → SpoilPart) (s : State) : State :=
  { s with
    records := { s.records with current := { s.records.current with spoil := s.records.current.spoil.map f } } }

/-- Change the grout part of the current record, where there is one. -/
def onGroutPart (f : GroutPart → GroutPart) (s : State) : State :=
  { s with
    records := { s.records with current := { s.records.current with grout := s.records.current.grout.map f } } }

/-! ### Build unit -/

/-- Raise PLAN MISMATCH (03 R63). -/
def raiseMismatch (s : State) : State := { s with build := { s.build with planMismatch := true } }

/-- The change from BUILDING to SUSPENDED with its effects on the own group, the retry wait and the record; nothing in
OPEN and SUSPENDED (03 R46). -/
def suspendBuild (s : State) : State :=
  if s.build.state = .building then
    let pressed :=
      match currentEntryState s with
      | some .pending | some .empty => pressIfWithdrawn s
      | _ => s
    onBuildPart (fun b => { b with suspended := true })
      { pressed with build := { pressed.build with state := .suspended, retry := none } }
  else s

/-! ### Trip memory and BLIND -/

/-- The trip memory becomes `l`; the change from empty to holding a pair suspends a build (03 R46). -/
def setTrips (l : List TripPair) (s : State) : State :=
  let s' := { s with view := { s.view with trips := l } }
  if s.view.trips.isEmpty && !l.isEmpty then suspendBuild s' else s'

/-- The trip memory with a pair added (01 R15). -/
def withPair (p : TripPair) (l : List TripPair) : List TripPair := if l.contains p then l else l ++ [p]

/-- The trip memory without a pair (01 R16). -/
def withoutPair (p : TripPair) (l : List TripPair) : List TripPair := l.filter (fun q => q ≠ p)

/-- A pair enters the trip memory (01 R15). -/
def addTrip (p : TripPair) (s : State) : State := setTrips (withPair p s.view.trips) s

/-- A pair leaves the trip memory (01 R16). -/
def removeTrip (p : TripPair) (s : State) : State := setTrips (withoutPair p s.view.trips) s

/-- Entering BLIND clears the completion marker and suspends a build (01 R17, 03 R46). -/
def enterBlind (s : State) : State :=
  if s.view.blind then s
  else suspendBuild { s with view := { s.view with blind := true, completion := false } }

/-- BLIND is left when an entry is FRESH and the completion marker is set (01 R18). -/
def leaveBlind (s : State) : State :=
  if s.view.blind && s.view.completion && !(freshPeers s).isEmpty then
    { s with view := { s.view with blind := false, silence := 0 } }
  else s

/-- The line-fault condition arises: a READY station becomes BLIND, and one that is BLIND already has its completion
marker cleared (10 R154, 01 R17). -/
def raiseLineFault (s : State) : State :=
  let s' := { s with bus := { s.bus with lineFault := true }, view := { s.view with completion := false } }
  if s.life = .ready then enterBlind s' else s'

/-- One more line fault is counted (10 R154). -/
def countFault (s : State) : State :=
  let s' := { s with bus := { s.bus with faults := min (s.bus.faults + 1) 16 } }
  if s'.bus.faults = 16 && !s.bus.lineFault then raiseLineFault s' else s'

/-! ### Grout line -/

/-- Change of the line state with the effects that go with every such change: the pump rate is 0 in CLOSED, FLUSHING and
TRIPPED (08 R121), LINE SATURATED is lowered on an exit from INJECTING (08 R128), the used marker is set on entry into
INJECTING (08 R123), the pot-life timer is idle in CLOSED and FLUSHING (08 R132). -/
def setLine (l : LineState) (s : State) : State :=
  { s with
    grout :=
      { s.grout with
        line := l
        rate := if lineReady l then s.grout.rate else 0
        saturated := s.grout.saturated && l = .injecting
        used := s.grout.used || l = .injecting
        potStart := if l = .closed || l = .flushing then none else s.grout.potStart } }

/-- Entry into FLUSHING (08 R131). -/
def startFlush (s : State) : State :=
  let s' := setLine .flushing s
  { s' with grout := { s'.grout with used := false, flushStart := some s.clock.now } }

/-- End of a flush (08 R131). -/
def endFlush (s : State) : State :=
  let s' := setLine .closed s
  { s' with grout := { s'.grout with flushStart := none, setting := false } }

/-- The pressure trip of a line (08 R133). -/
def tripLine (s : State) : State := onGroutPart (fun g => { g with lineTripped := true }) (setLine .tripped s)

/-- The comparison of the line pressure with the active limit (08 R133). -/
def judgeLinePressure (s : State) : State :=
  if lineReady s.grout.line && s.grout.active.limit < s.inputs.linePressure then tripLine s else s

/-- The pot-life timer expires (08 R132). -/
def potLifeExpires (s : State) : State :=
  match s.grout.line with
  | .armed | .injecting => startFlush s
  | .tripped => { s with grout := { s.grout with setting := true, potStart := none } }
  | _ => { s with grout := { s.grout with potStart := none } }

/-! ### Drive -/

/-- A drive goes to STOPPING (05 R85). -/
def stopDrive (s : State) : State := { s with drive := { s.drive with state := .stopping, trim := 0 } }

/-- A drive goes to OFF; its stall timer returns to idle (05 R86, R87). -/
def driveOff (s : State) : State := { s with drive := { s.drive with state := .off, trim := 0, stallStart := none } }

/-- The end of a stop: command 0 and measured speed below 5 (05 R86). -/
def endStop (s : State) : State :=
  if s.drive.state = .stopping && s.drive.command = 0 && s.inputs.speed < 5 then driveOff s else s

/-- The stall timer is watched (05 R87). -/
def stallWatched : DriveState → Bool
  | .starting | .running | .stopping => true
  | _ => false

/-- The drive goes to STALLED (05 R88). -/
def stallDrive (s : State) : State :=
  enqueue (.trip .stall)
    (addTrip (s.own, .stall)
      { s with drive := { s.drive with state := .stalled, command := 0, trim := 0, stallStart := none } })

/-! ### Clock -/

/-- The clock stands at least at a moment that has come (log 3). -/
def clockTo (t : Nat) (s : State) : State := { s with clock := { s.clock with now := max s.clock.now t } }

/-- The time since a start, in ms, has reached `seconds`. -/
def reached (s : State) (start seconds : Nat) : Bool := start + seconds * 1000 ≤ s.clock.now

end Sys2Proof.Machine
end

