-- ==== Sys2Proof/Machine/Units.lean ====
section
/-! DEFINITION. Machine/Units.lean: what the drive, screw, train and thrust unit of a station evaluate before an event ends:
the drive's start conditions (05 R80), the screw state and support valve (06 R94, R99, R101), the pace (07 R115, R117), the
hold reasons and HOLD and ADVANCE (02 R25, R31). -/

namespace Sys2Proof.Machine

open Sys2Proof

/-- A drive in STARTING or RUNNING whose start conditions have failed goes to STOPPING (05 R80, R85). -/
def driveEval (s : State) : State :=
  if (s.drive.state = .starting || s.drive.state = .running) && !startConditions s then stopDrive s else s

/-- PRESSURE BLIND follows the absence of P_c, with its record flag (06 R101). -/
def pressureBlindEval (s : State) : State :=
  let blind := (controlPressure s).isNone
  let s' := { s with train := { s.train with reasons := { s.train.reasons with pressureBlind := blind } } }
  if blind then onSpoilPart (fun p => { p with pressureBlind := true }) s' else s'

/-- Change of the screw state with its effects (06 R95, R102). -/
def setScrew (x : ScrewState) (s : State) : State :=
  if s.screw.state = x then s
  else { s with screw := { s.screw with state := x, command := 0, support := false, beltStart := none } }

/-- Evaluation of the support valve (06 R99). -/
def supportEval (s : State) : State :=
  { s with
    screw :=
      { s.screw with
        support :=
          s.screw.state = .buildHold
            && supportChoice s.screw.target s.screw.band (controlPressure s) s.screw.support } }

/-- The screw unit at the end of an event (06 R94, R95, R99, R101). -/
def screwEval (s : State) : State :=
  if s.cfg.roles.screw then
    let s' := pressureBlindEval s
    supportEval (setScrew (screwChoice s') s')
  else s

/-- The new advance speed limit takes effect (02 R36). -/
def limitEval (s : State) : State := { s with thrust := { s.thrust with vlim := limitOf s } }

/-- The pace state becomes `p`; a change queues a PACE notice and, at the spoil station, is an event for v_lim (07 R117,
R118, 02 R36). -/
def setPace (p : Pace) (s : State) : State :=
  if s.train.pace = p then s
  else
    let s' := enqueue (.pace p) { s with train := { s.train with pace := p } }
    if spoilStation s' = some s'.own then limitEval s' else s'

/-- The train unit at the end of an event: TRAIN, NO TARGET and the pace (07 R115, R117, 06 R104). -/
def trainEval (s : State) : State :=
  if s.cfg.roles.screw then
    let s' :=
      { s with
        train :=
          { s.train with
            reasons :=
              { s.train.reasons with train := trainGrade s.train, noTarget := s.screw.target.isNone } } }
    setPace (paceOf s'.view.screwConflict s'.train.reasons) s'
  else s

/-- The hold-reason set at the end of an event (02 R31 to R35). -/
def holdsEval (s : State) : State := { s with thrust := { s.thrust with holds := holdsOf s } }

/-- HOLD with an empty set goes to ADVANCE, ADVANCE with a reason goes to HOLD (02 R25). -/
def advanceEval (s : State) : State :=
  match s.thrust.mode with
  | .hold => if holdsEmpty s.thrust.holds then setMode .advance s else s
  | .advance => if holdsEmpty s.thrust.holds then s else setMode .hold s
  | _ => s

/-- Drive, screw, train and thrust unit, in this order; `lim` says whether the event is one that recomputes v_lim (02
R36). -/
def unitsEval (lim : Bool) (s : State) : State :=
  let paced := trainEval (screwEval (driveEval s))
  advanceEval (holdsEval (if lim then limitEval paced else paced))

end Sys2Proof.Machine
end

