-- ==== Sys2Proof/Machine/RingOps.lean ====
section
/-! DEFINITION. Machine/RingOps.lean: the spoil account (09 R141, R142), the ring close and the ring open (09 R144, 03
R61, R62, 08 R125), the holding margin's decisions (03 R52 to R54), and the STEP notices at the build unit (03 R56 to
R60). -/

namespace Sys2Proof.Machine

open Sys2Proof

/-! ### Record and account -/

/-- The update of the machine advance L_ring (01 R11). -/
def updateRingAdvance (s : State) : State :=
  if s.view.lring < ringMean s then { s with view := { s.view with lring := ringMean s } } else s

/-- The ring's revolutions (05 R91). -/
def revolutions (s : State) : Nat := s.drive.accumulator / 600

/-- The figures that the current record takes from the units as they change (09 R138, R139). -/
def syncRecord (s : State) : State :=
  let r := s.records.current
  { s with
    records :=
      { s.records with
        current :=
          { r with
            ownAdvance := s.thrust.advance
            machineAdvance := s.view.lring
            advanceAtLimit := r.advanceAtLimit || 65535 ≤ s.thrust.advance || 65535 ≤ s.view.lring
            drive :=
              r.drive.map (fun d =>
                { d with
                  revolutions := revolutions s
                  peakTorque := s.drive.peakTorque
                  atLimit := d.atLimit || 999999 ≤ revolutions s })
            grout :=
              r.grout.map (fun g =>
                { g with
                  strokes := s.grout.strokes
                  volume := s.grout.volume
                  atLimit := g.atLimit || 99999 ≤ s.grout.strokes || 9999999 ≤ s.grout.volume }) } } }

/-- The spoil part after one computation of the spoil account, with its flags judged (09 R141, R142). -/
def accountPart (s : State) (p : SpoilPart) : SpoilPart :=
  let vex := excavated s
  let vrm := removed s p.belt p.additive
  let ratio := balanceRatio s vex vrm
  { p with
    vex := vex
    vrm := vrm
    ratio := ratio
    negativeNet := p.negativeNet || p.belt ≤ p.additive
    isOver := p.isOver || (match ratio with | some r => s.records.limits.upper < r | none => false)
    isUnder := p.isUnder || (match ratio with | some r => r < s.records.limits.lower | none => false) }

/-- One computation of the spoil account of the current record (09 R141, R142). -/
def accountSpoil (s : State) : State := onSpoilPart (accountPart s) s

/-- The judgement handed to the train unit: the ratio just computed is present and above the active upper limit (09
R142). -/
def overJudgement (s : State) : Bool :=
  match s.records.current.spoil with
  | some p => match p.ratio with | some r => s.records.limits.upper < r | none => false
  | none => false

/-- The FILLING car takes the flag OVER (07 R114). -/
def flagFilling (cars : List Car) : List Car :=
  cars.map (fun c => if c.state = .filling then { c with flagOver := true } else c)

/-- The train unit takes a judgement of the balance ratio (07 R116). -/
def judgeOver (j : Bool) (s : State) : State :=
  { s with
    train :=
      { s.train with
        cars := if j && !s.train.reasons.isOver then flagFilling s.train.cars else s.train.cars
        reasons := { s.train.reasons with isOver := j } } }

/-- Machine grout volume, lines counted, ratio and their flags in the grout part of the closing record (09 R145). -/
def groutTotals (s : State) : State :=
  let peers := (freshPeers s).filter (fun p => p.2.ring = s.records.ring)
  let total := s.grout.volume + (peers.map (fun p => p.2.volume)).sum
  let ratio : Option Nat := if s.view.lring = 0 then none else some (total * 1000 / (s.cfg.aa * s.view.lring))
  onGroutPart (fun g =>
    { g with
      machine := some total
      lines := some (1 + peers.length)
      ratio := ratio
      target := some s.grout.active.ratio
      underfill := g.underfill || (match ratio with | some r => r < 1000 | none => false)
      excess := g.excess || (match ratio with | some r => s.grout.active.ratio + 500 < r | none => false) }) s

/-- The build part's entries set become the SET entries of the own plan copy (09 R144). -/
def fixEntriesSet (s : State) : State :=
  onBuildPart (fun b => { b with entriesSet := (s.build.entries.filter (fun e => e.state = .set)).length }) s

/-- A record appended to the history as the newest; the oldest of 16 leaves (09 R146). -/
def appendHistory (h : List Record) (r : Record) : List Record :=
  if h.length < 16 then h ++ [r] else h.drop 1 ++ [r]

/-- The ring number after a close by the SET of the KEY (09 R137, R144). -/
def nextRing (r : Nat) : Nat := if r = 65535 then r else r + 1

/-- Steps 5 and 6 of a ring close: the record is stored and the new one opened; a close from ring 65,535 empties the
history; the pending balance limits become active (09 R144, R143). -/
def storeAndOpen (newRing : Nat) (cause : OpeningCause) (s : State) : State :=
  { s with
    records :=
      { ring := newRing
        current := Record.fresh s.cfg.roles newRing cause
        history := if s.records.ring = 65535 then [] else appendHistory s.records.history s.records.current
        limits := s.records.waitingLimits.getD s.records.limits
        waitingLimits := none } }

/-- What every ring open does at the units (02 R23, 01 R11, 06 R96, 05 R91, 08 R125, 03 R39, 04 R76): the figures of the
ring return to 0, the plan is cleared, PLAN MISMATCH, MARGIN LOW and FEEDER MISMATCH are lowered. -/
def openUnits (s : State) : State :=
  { s with
    thrust := { s.thrust with advance := 0 }
    view := { s.view with lring := 0 }
    screw := { s.screw with sample := 0 }
    drive := { s.drive with accumulator := 0, peakTorque := 0 }
    grout := { s.grout with strokes := 0, volume := 0, sample := 0 }
    build :=
      { s.build with
        state := .ringOpen, entries := [], planRing := 0, index := 0, retry := none, planMismatch := false,
        marginLow := false }
    erector := { s.erector with feederMismatch := false } }

/-- Steps 2 and 3 of 08 R125: the carried tail from the closing ring's window, then the pending settings. -/
def groutSettingsAtClose (s : State) : State :=
  { s with
    grout :=
      { s.grout with
        tail := if s.grout.active.closes < s.grout.active.opens then some s.grout.active.closes else none
        active := s.grout.waiting.getD s.grout.active
        waiting := none } }

/-- The end of the carried tail (08 R124). -/
def tailEval (s : State) : State :=
  match s.grout.tail with
  | some t => if t ≤ s.thrust.advance then { s with grout := { s.grout with tail := none } } else s
  | none => s

/-- ARMED goes to INJECTING while the injection condition holds, and back when it fails (08 R123). -/
def injectionEval (s : State) : State :=
  let s' := tailEval s
  match s'.grout.line with
  | .armed => if injectionCondition s' then setLine .injecting s' else s'
  | .injecting => if injectionCondition s' then s' else setLine .armed s'
  | _ => s'

/-- A ring close (09 R144, 03 R61, R62, 08 R125). The units are evaluated before the injection condition, which reads the
group mode as it stands after the event (08 R123). The PRESS request and the flag CAUGHT UP of an adoption are the
caller's. -/
def closeRing (newRing : Nat) (cause : OpeningCause) (s : State) : State :=
  let counted := fixEntriesSet (groutTotals (accountSpoil (updateRingAdvance s)))
  let opened := openUnits (groutSettingsAtClose (storeAndOpen newRing cause (syncRecord counted)))
  judgeLinePressure (injectionEval (unitsEval false (judgeOver false opened)))

/-- A ring open without a close, at SET RING and at an adoption in LISTENING: the current record is discarded and the
carried tail dropped (09 R149, 12 R169, 08 R125). -/
def openRing (newRing : Nat) (cause : OpeningCause) (s : State) : State :=
  openUnits
    { s with
      records := { s.records with ring := newRing, current := Record.fresh s.cfg.roles newRing cause }
      grout := { s.grout with tail := none } }

/-- Adoption of a higher ring by a READY station (03 R62). -/
def adoptRing (newRing : Nat) (s : State) : State :=
  let s' :=
    if s.build.state = .ringOpen then s
    else pressIfWithdrawn (onBuildPart (fun b => { b with caughtUp := true }) s)
  closeRing newRing .adopted s'

/-! ### Holding margin -/

/-- The retraction decision (03 R52). -/
def decideRetract (s : State) : State :=
  if s.build.state = .building && ownCovered s && currentEntryState s = some .pending && s.thrust.mode = .hold
      && !tripInView s && !s.view.blind && s.build.retry.isNone && marginMet s then
    retractRequest s
  else s

/-- A withdrawal undone at a breach: PRESS request, and a retry wait begins (03 R53, R54). -/
def abortWithdrawal (s : State) : State :=
  let s' := pressRequest s
  { s' with build := { s'.build with retry := some 0 } }

/-- The margin watch of a withdrawn group (03 R53). -/
def marginWatch (s : State) : State :=
  if withdrawn s && s.build.state ≠ .ringOpen then
    if marginMet s then { s with build := { s.build with marginLow := false } }
    else
      match currentEntryState s with
      | some .pending => abortWithdrawal s
      | some .claimed =>
        onBuildPart (fun b => { b with marginLow := true }) { s with build := { s.build with marginLow := true } }
      | _ => s
  else s

/-- A running retry wait at a STATE arrival (03 R54). -/
def retryAtArrival (s : State) : State :=
  match s.build.retry with
  | some _ => if marginMet s then s else { s with build := { s.build with retry := some 0 } }
  | none => s

/-- A running retry wait at an aging expiry (03 R54): it ends when its count reaches k. -/
def retryAtExpiry (s : State) : State :=
  match s.build.retry with
  | some c =>
    let next : Option Nat := if marginMet s then (if s.cfg.k ≤ c + 1 then none else some (c + 1)) else some 0
    { s with build := { s.build with retry := next } }
  | none => s

/-! ### STEP notices at the build unit -/

/-- Set the state of the entry at the progress index. -/
def setEntryState (e : EntryState) (s : State) : State :=
  { s with build := { s.build with entries := s.build.entries.modify s.build.index (fun p => { p with state := e }) } }

/-- Every entry below `i` becomes SET and the progress index `i` (03 R57, R60). -/
def moveIndex (i : Nat) (s : State) : State :=
  { s with
    build :=
      { s.build with
        entries := (s.build.entries.take i).map (fun p => { p with state := .set }) ++ s.build.entries.drop i
        index := i
        retry := none } }

/-- The progress index has moved past the working entry, on its ring (04 R73, R74). -/
def passedBy (w : Working) (s : State) : Bool := w.ring = s.records.ring && w.index < s.build.index

/-- The erector sequence in STANDBY, without a STEP; FEEDER EMPTY is lowered (04 R73, R74, R76). -/
def standDown (s : State) : State := { s with erector := { s.erector with seq := .standby, feederEmpty := false } }

/-- AWAITING PRESS whose working entry has been set by another way goes to STANDBY without a STEP (04 R74). -/
def pressPassed (s : State) : State :=
  match s.erector.working with
  | some w => if s.erector.seq = .awaitingPress && passedBy w s then standDown s else s
  | none => s

/-- Every sequence whose working entry the SET of the KEY has set by another way goes to STANDBY without a STEP, before
the ring closes (04 R73, R74, log 17). -/
def sequencePassed (s : State) : State :=
  match s.erector.working with
  | some w => if s.erector.seq ≠ .standby && passedBy w s then standDown s else s
  | none => s

/-- An EMPTY entry reached at the progress index: PLAN MISMATCH, and a build that is BUILDING suspends (03 R46). -/
def judgeEmpty (s : State) : State :=
  if currentEntryState s = some .empty then suspendBuild (raiseMismatch s) else s

/-- Catch-up to index `j` (03 R57). -/
def catchUp (j : Nat) (s : State) : State :=
  let moved := pressPassed (moveIndex j s)
  judgeEmpty (pressIfWithdrawn (onBuildPart (fun b => { b with caughtUp := true }) moved))

/-- A SET at the progress index, closing the ring when the entry carries the KEY marker (03 R60, R61). -/
def setEntry (e : PlanEntry) (s : State) : State :=
  let moved := moveIndex (s.build.index + 1) s
  if e.key then closeRing (nextRing s.records.ring) .close (pressIfWithdrawn (sequencePassed moved))
  else judgeEmpty (pressIfWithdrawn (pressPassed moved))

/-- A RELEASE at an entry that is not PLACED (03 R58, R59). -/
def releaseEntry (s : State) : State :=
  let s' := setEntryState .pending s
  if ownCovered s' && withdrawn s' then
    if s'.build.state = .suspended then pressRequest s'
    else if marginMet s' then s' else abortWithdrawal s'
  else s'

/-- A PLACED at an entry (03 R58, R59). -/
def placeEntry (s : State) : State :=
  let s' := setEntryState .placed s
  if ownCovered s' then pressIfWithdrawn s' else s'

/-- An action applied to the entry at the progress index (03 R58 to R60). -/
def applyAction (a : StepAction) (s : State) : State :=
  match planAt s s.build.index with
  | none => s
  | some e =>
    match a, e.state with
    | .set, _ => setEntry e s
    | _, .empty => raiseMismatch s
    | .claim, .pending => setEntryState .claimed s
    | .release, .pending | .release, .claimed => releaseEntry s
    | .placed, .pending | .placed, .claimed | .placed, .placed => placeEntry s
    | _, _ => s

/-- A STEP judged against the build state and the plan, in the order of the table of 03 R56. -/
def judgeStep (a : StepAction) (ring index : Nat) (s : State) : State :=
  if s.build.state = .ringOpen then s
  else if ring < s.records.ring then s
  else if ring ≠ s.records.ring then raiseMismatch s
  else if s.build.entries.length ≤ index then raiseMismatch s
  else if index < s.build.index then s
  else if index = s.build.index then applyAction a s
  else applyAction a (catchUp index s)

/-- A STEP taken, from a peer or from the own erector unit: judged, and a retraction decision event (03 R56, R52). -/
def takeStep (a : StepAction) (ring index : Nat) (s : State) : State := decideRetract (judgeStep a ring index s)

end Sys2Proof.Machine
end

