-- ==== Sys2Proof/Machine/Settle.lean ====
section
/-! DEFINITION. Machine/Settle.lean: what every unit of a LISTENING or READY station evaluates before an event ends: the
units of Machine/Units.lean, the erector sequence (04 R68 to R74), the injection condition (08 R123, R124) and the outputs.
These conditions depend on state that only the events named by the rules change, so evaluating them at the end of every
event gives what the rules give (log 14); the order is log 10. -/

namespace Sys2Proof.Machine

open Sys2Proof

/-! ### Erector sequence -/

/-- A STEP of the own erector unit: queued, and applied by the own build unit in the same event (04 R75, 03 R56). -/
def issueStep (a : StepAction) (w : Working) (s : State) : State :=
  takeStep a w.ring w.index (enqueue (.step a w.ring w.index) s)

/-- Change of the sequence state; leaving AWAITING CLEAR lowers FEEDER EMPTY (04 R76). -/
def setSeq (q : SeqState) (s : State) : State :=
  { s with erector := { s.erector with seq := q, feederEmpty := s.erector.feederEmpty && q = .awaitingClear } }

/-- STANDBY: on to AWAITING CLEAR with the working entry copied (04 R68). -/
def leaveStandby (s : State) : State :=
  if s.life = .ready && !s.view.erectorConflict && s.build.state = .building then
    match planAt s s.build.index with
    | some e =>
      if e.state = .pending then
        let s' := setSeq .awaitingClear s
        { s' with
          erector :=
            { s'.erector with
              working :=
                some
                  { ring := s.records.ring, index := s.build.index, piece := e.piece, key := e.key, cover := e.cover } } }
      else s
    | none => s
  else s

/-- The placing test (04 R70). -/
def placingTest (w : Working) (s : State) : State :=
  match s.erector.queue with
  | [] => { s with erector := { s.erector with feederEmpty := true } }
  | p :: _ =>
    if p.piece = w.piece && p.key = w.key then issueStep .claim w (setSeq .placing s)
    else suspendBuild { (setSeq .standby s) with erector := { (setSeq .standby s).erector with feederMismatch := true } }

/-- The build is no longer the working entry's: it has left BUILDING, or its ring (04 R73). -/
def workEnded (w : Working) (s : State) : Bool := s.build.state ≠ .building || s.records.ring ≠ w.ring

/-- One transition of the erector sequence, where one is due (04 R68 to R74, 01 R20). An end of the work in PLACING issues
RELEASE unless the progress index has moved past the working entry (04 R73). -/
def seqStep (s : State) : State :=
  match s.erector.seq, s.erector.working with
  | .standby, _ => leaveStandby s
  | _, none => setSeq .standby s
  | .awaitingClear, some w =>
    if s.view.erectorConflict || workEnded w s || s.build.index ≠ w.index then setSeq .standby s
    else if w.cover.all (seenIn s .clear) then placingTest w s
    else s
  | .placing, some w =>
    if s.view.erectorConflict then issueStep .release w (setSeq .standby s)
    else if passedBy w s then setSeq .standby s
    else if workEnded w s || s.build.index ≠ w.index then issueStep .release w (setSeq .standby s)
    else if w.cover.all (seenIn s .clear) then s
    else issueStep .release w (setSeq .awaitingClear s)
  | .awaitingPress, some w =>
    if s.view.erectorConflict then setSeq .standby s
    else if w.cover.all (seenIn s .hold) then issueStep .set w (setSeq .standby s)
    else s

/-- The work on the working entry ends in AWAITING CLEAR or PLACING (04 R73). -/
def workEnds (s : State) : Bool :=
  match s.erector.seq, s.erector.working with
  | .awaitingClear, some w | .placing, some w =>
    s.view.erectorConflict || workEnded w s || s.build.index ≠ w.index
  | _, _ => false

/-- The transitions of the sequence within one event. After an event that ends the work on an entry the sequence stands in
STANDBY; it goes on at the next event after which its conditions hold (04 R73, log 26). -/
def seqSteps : Nat → State → State
  | 0, s => s
  | n + 1, s => if workEnds s then seqStep s else seqSteps n (seqStep s)

/-- The erector unit at the end of an event. One event makes at most SET, then AWAITING CLEAR, then CLAIM, then RELEASE
and back to AWAITING CLEAR: eight transitions are more than enough. -/
def erectorEval (s : State) : State := if s.cfg.roles.erector then seqSteps 8 s else s

/-! ### Outputs -/

/-- The extend valve in each mode (02 R24). -/
def extendOf (s : State) : ExtendValve :=
  match s.thrust.mode with
  | .advance => .reference s.thrust.vlim
  | .pressing => .press
  | _ => .closed

/-- The retract valve in each mode (02 R24, R27). -/
def retractOf (s : State) : Bool :=
  match s.thrust.mode with
  | .retracting => true
  | .clear => !s.inputs.retracted
  | _ => false

/-- The converter enable in each drive state (05 R78). -/
def driveEnableOf (d : Drive) : Bool :=
  match d.state with
  | .starting | .running => true
  | .stopping => 0 < d.command
  | _ => false

/-- The converter's speed reference in each drive state (05 R78). -/
def driveRefOf (d : Drive) : Nat :=
  match d.state with
  | .starting | .running | .stopping => d.command
  | _ => 0

/-- The output pins of a LISTENING or READY station (02 R24, 05 R78, 06 R95, 08 R121, 04 R77, 12 section 12.5). -/
def outputsOf (s : State) : Outputs :=
  { extend := extendOf s
    retract := retractOf s
    lock := extendOf s = .closed && !retractOf s
    driveEnable := driveEnableOf s.drive
    driveRef := driveRefOf s.drive
    direction := s.drive.direction
    screwEnable := s.screw.state = .running
    screwRef := s.screw.command
    gate := s.screw.state = .running
    support := s.screw.support
    groutValve := s.grout.line = .injecting
    pump := s.grout.line = .injecting && 0 < s.grout.rate
    pumpRate := if s.grout.line = .injecting then s.grout.rate else 0
    flushValve := s.grout.line = .flushing
    erectorEnable := s.erector.seq = .placing
    status := s.life = .ready }

/-- The outputs follow the units in the event that changes them. -/
def setOutputs (s : State) : State := { s with out := outputsOf s }

/-- The end of an event at a LISTENING or READY station; nothing in STARTING and CONFIG FAULT (12 R165). The units are
evaluated before the erector sequence, which reads the own group mode, and again after it. -/
def settle (lim : Bool) (s : State) : State :=
  if s.running then
    setOutputs (syncRecord (injectionEval (unitsEval lim (erectorEval (unitsEval lim s)))))
  else s

end Sys2Proof.Machine
end

