-- ==== Sys2Proof/Machine/Layout.lean ====
section
/-! DEFINITION. Machine/Layout.lean: the layouts of 10 section 10.6: the STATE body with its pages, the record sheets and
other REPLY data, the frame of an offer with its check word, and the receive checks of 10 R155. -/

namespace Sys2Proof.Machine

open Sys2Proof

/-- A field of `k` bytes; absent, unset and NO READING carry all ones (10 section 10.6). -/
def optField (k : Nat) : Option Nat → List Byte
  | some v => beBytes k v
  | none => List.replicate k (byteOf 255)

/-- A page filled up to its 9 bytes with 0. -/
def padPage (bs : List Byte) : List Byte := bs ++ List.replicate (9 - bs.length) (byteOf 0)

/-! ### STATE body -/

/-- The own measured cutterhead speed as reported; an ABSENT drive reports 0 (05 R78). -/
def reportedSpeed (s : State) : Nat := if s.drive.state = .absent then 0 else s.inputs.speed

/-- The own drive torque as reported; an ABSENT drive reports 0 (05 R78). -/
def reportedTorque (s : State) : Nat := if s.drive.state = .absent then 0 else s.inputs.torque

/-- The pace a station sends: its pace state, or FREE without the SCREW role (01 R3, 07 R107). -/
def reportedPace (s : State) : Pace := if s.cfg.roles.screw then s.train.pace else .free

/-- Bytes 0 to 22 of a STATE body (10 section 10.6). -/
def stateCore (s : State) : List Byte :=
  [byteOf (bit s.cfg.roles.screw * 128 + bit s.cfg.roles.erector * 64 + bit s.cfg.roles.drive * 32
      + bit s.cfg.roles.line * 16 + bit (s.life = .ready) * 8 + s.bus.page)]
    ++ beBytes 2 s.records.ring
    ++ [byteOf (buildCode s.build.state * 64 + s.build.index * 4 + bit (s.thrust.mode = .tripped) * 2
        + bit (s.drive.state = .stalled)),
      byteOf (modeCode s.thrust.mode * 32 + paceCode (reportedPace s) * 8 + bit (tripInView s) * 4
        + bit s.view.blind * 2)]
    ++ beBytes 2 s.inputs.force ++ beBytes 2 s.thrust.advance
    ++ [byteOf (driveCode s.drive.state * 32 + lineCode s.grout.line * 4)]
    ++ beBytes 2 (reportedSpeed s) ++ beBytes 2 (reportedTorque s) ++ beBytes 3 s.grout.volume
    ++ optField 2 s.inputs.chamber ++ beBytes 2 (flagSet 16 (alarmFlags s))
    ++ beBytes 2 (flagSet 16 (holdFlags s.thrust.holds))

/-- Page 0: thrust and ring record unit. `Pending balance pair held` goes out as the number 1 or 0 (DESIGN CHOICE, log
34). -/
def pageThrust (s : State) : List Byte :=
  beBytes 2 s.inputs.stroke
    ++ [byteOf s.thrust.vlim, byteOf (causeCode s.records.current.cause * 32 + s.records.history.length)]
    ++ (if s.cfg.roles.screw then
          beBytes 2 s.records.limits.lower ++ beBytes 2 s.records.limits.upper
            ++ [byteOf (bit s.records.waitingLimits.isSome)]
        else List.replicate 5 (byteOf 0))

/-- The erector bytes of page 1. Working index and head type carry all ones while there is none (log 12). -/
def pageErector (e : Erector) : List Byte :=
  [byteOf (seqCode e.seq * 64 + e.queue.length * 4 + bit (!e.queue.isEmpty) * 2
      + bit ((e.queue.head?.map Piece.key).getD false)),
   byteOf ((e.working.map Working.index).getD 7 * 32 + (e.queue.head?.map Piece.piece).getD 7)]

/-- Page 1: drive and erector. The signed trim goes out in two's complement (PRESUMED, log 31). -/
def pageDrive (s : State) : List Byte :=
  (if s.cfg.roles.drive then
      beBytes 2 s.drive.command ++ beBytes 2 s.drive.target
        ++ [BitVec.ofInt 8 s.drive.trim, byteOf (directionCode s.drive.direction)]
    else List.replicate 6 (byteOf 0))
    ++ (if s.cfg.roles.erector then pageErector s.erector else List.replicate 2 (byteOf 0))

/-- Page 2: grout figures. `Pending grout set held` goes out as the number 1 or 0 (DESIGN CHOICE, log 34). -/
def pageGrout (s : State) : List Byte :=
  if s.cfg.roles.line then
    beBytes 3 s.grout.strokes ++ [byteOf s.grout.rate] ++ beBytes 2 s.inputs.linePressure ++ optField 2 s.grout.tail
      ++ [byteOf (bit s.grout.waiting.isSome)]
  else []

/-- Page 3: active grout settings. -/
def pageSettings (s : State) : List Byte :=
  if s.cfg.roles.line then
    beBytes 2 s.grout.active.opens ++ beBytes 2 s.grout.active.closes ++ beBytes 2 s.grout.active.ratio
      ++ beBytes 2 s.grout.active.limit
  else []

/-- Page 4: screw. -/
def pageScrew (s : State) : List Byte :=
  if s.cfg.roles.screw then
    [byteOf (screwCode s.screw.state * 64 + bit (s.screw.state = .running) * 32 + bit s.screw.support * 16)]
      ++ beBytes 2 s.screw.command ++ optField 2 s.screw.target ++ [byteOf s.screw.band, byteOf s.screw.gain]
      ++ optField 2 (controlPressure s)
  else []

/-- The position of the FILLING car counted from 1, or 0. -/
def fillingPosition (cars : List Car) : Nat :=
  match cars.findIdx? (fun c => c.state = .filling) with
  | some i => i + 1
  | none => 0

/-- Page 5: cars, pace reasons, free capacity and train mass. -/
def pageTrain (s : State) : List Byte :=
  if s.cfg.roles.screw then
    [byteOf (s.train.cars.length * 16 + fillingPosition s.train.cars),
      byteOf (gradeCode s.train.reasons.train * 64 + bit s.train.reasons.isOver * 32
        + bit s.train.reasons.pressureBlind * 16 + bit s.train.reasons.beltSilent * 8
        + bit s.train.reasons.noTarget * 4)]
      ++ beBytes 3 (freeCapacity s.train.cars) ++ beBytes 3 s.train.mass
  else []

/-- Page 6: overflow mass and levels. -/
def pageLevels (s : State) : List Byte :=
  if s.cfg.roles.screw then
    beBytes 3 s.train.overflow ++ beBytes 3 s.train.holdLevel ++ beBytes 3 s.train.slowLevel
  else []

/-- Page 7: spoil account. The ratio is the current record's, absent from a ring open to the first computation in the new
ring (09 R150; DEDUCED, log 28). -/
def pageSpoil (s : State) : List Byte :=
  match s.records.current.spoil with
  | some p => beBytes 3 p.belt ++ beBytes 3 p.additive ++ optField 2 p.ratio
  | none => []

/-- The page of a number, 9 bytes (10 section 10.6, 10 R157). -/
def statePage (s : State) : Nat → List Byte
  | 0 => padPage (pageThrust s)
  | 1 => padPage (pageDrive s)
  | 2 => padPage (pageGrout s)
  | 3 => padPage (pageSettings s)
  | 4 => padPage (pageScrew s)
  | 5 => padPage (pageTrain s)
  | 6 => padPage (pageLevels s)
  | _ => padPage (pageSpoil s)

/-- The 32-byte STATE body as the station stands: the core and the page of the page count (10 R157). -/
def stateBytes (s : State) : List Byte := stateCore s ++ statePage s s.bus.page

/-! ### Record sheets and other REPLY data -/

/-- A volume in litres, rounded (09 R147). -/
def litres (ml : Nat) : Nat := roundNat ml 1000

/-- The two bytes of a grout ratio; a ratio that does not fit them is left free (log 13). -/
def groutRatioBytes : Option Nat → List Byte
  | none => optField 2 none
  | some r => if r < 65536 then beBytes 2 r else beBytes 2 (Config.groutRatioField r).toNat

/-- The sheet byte (10 R160): sheet number, EMPTY, and the parts present. -/
def sheetByte (second : Bool) (r : Record) : Byte :=
  byteOf (bit second * 128 + bit r.drive.isSome * 8 + bit r.grout.isSome * 4 + bit r.spoil.isSome * 2
    + bit r.build.isSome)

/-- Sheet 1 of a record (10 R160). -/
def sheetOne (r : Record) : List Byte :=
  [sheetByte false r] ++ beBytes 2 r.ring ++ [byteOf (causeCode r.cause)] ++ beBytes 2 r.ownAdvance
    ++ beBytes 2 r.machineAdvance ++ beBytes 2 r.advanceSeconds ++ beBytes 2 r.buildSeconds ++ beBytes 2 r.peakForce
    ++ beBytes 3 ((r.drive.map DrivePart.revolutions).getD 0) ++ beBytes 2 ((r.drive.map DrivePart.peakTorque).getD 0)
    ++ [byteOf ((r.build.map BuildPart.entriesSet).getD 0)] ++ beBytes 3 (flagSet 24 (recordFlags r))

/-- The grout fields of sheet 2. -/
def sheetGrout : Option GroutPart → List Byte
  | none => List.replicate 13 (byteOf 0)
  | some g =>
    beBytes 3 g.strokes ++ beBytes 2 (litres g.volume) ++ optField 3 (g.machine.map litres) ++ optField 1 g.lines
      ++ groutRatioBytes g.ratio ++ optField 2 g.target

/-- The spoil fields of sheet 2. -/
def sheetSpoil : Option SpoilPart → List Byte
  | none => List.replicate 14 (byteOf 0)
  | some p =>
    beBytes 3 p.belt ++ beBytes 3 p.additive ++ beBytes 3 (litres p.vex) ++ beBytes 3 (litres p.vrm)
      ++ optField 2 p.ratio

/-- Sheet 2 of a record (10 R160). -/
def sheetTwo (r : Record) : List Byte := [sheetByte true r] ++ sheetGrout r.grout ++ sheetSpoil r.spoil

/-- The data of the REPLY to a READ HISTORY that finds no record (10 R160). -/
def sheetEmpty : List Byte := [byteOf 64]

/-- The report of TRAIN OUT (10 section 10.6). -/
def trainReport (cars : List Car) : List Byte :=
  byteOf cars.length
    :: cars.flatMap (fun c =>
        beBytes 2 c.filled ++ [byteOf (bit c.flagAdditive * 128 + bit c.flagOver * 64 + bit c.flagShort * 32)])

/-- The data of the REPLY to DISCARD PIECE (10 section 10.6); with no piece named, type and arrival number carry all ones
(log 12). -/
def pieceData : Option Piece → List Byte
  | some p => [byteOf (128 + bit p.key * 64 + p.piece), byteOf p.arrival]
  | none => [byteOf 7, byteOf 255]

/-! ### Frames -/

/-- Address of a command's sender (11, opening). -/
def sourceAddress : CmdSource → Nat
  | .cab => 14
  | .service => 15

/-- The rank of a STATE notice (10 R152). -/
def stateRank (s : State) : Nat :=
  (s.own + 2 * s.cfg.n - s.bus.lastSource.getD (s.cfg.n - 1) - 1) % s.cfg.n

/-- Body bytes of a notice as its offer begins (10 R151, section 10.6). -/
def noticeBody (s : State) : TxNotice → List Byte
  | .state => stateBytes s
  | .trip c => [byteOf (tripCode c)]
  | .pace p => [byteOf (paceCode p)]
  | .step a ring index => [byteOf (stepCode a)] ++ beBytes 2 ring ++ [byteOf index]
  | .reply _ number tag r data => [byteOf number, tag, byteOf (resultPosition r * 16 + resultCode r)] ++ data

/-- Kind number of a notice (10 section 10.6). -/
def noticeKind : TxNotice → Nat
  | .state => 0 | .trip _ => 1 | .pace _ => 2 | .step _ _ _ => 3 | .reply _ _ _ _ _ => 5

/-- The frame of a notice whose offer begins (10 R151, R152). -/
def frameOf (s : State) (n : TxNotice) : Frame :=
  { cls := noticeClass n
    rank := if n = .state then stateRank s else 0
    source := s.own
    dest := match n with | .reply d _ _ _ _ => sourceAddress d | _ => 8
    kind := noticeKind n
    body := noticeBody s n }

/-- The contention value of an offer: class, then rank, then source address (10 R151). -/
def contentionValue (f : Frame) : Nat := (f.cls * 8 + f.rank) * 16 + f.source

/-- The lowest `w` bits of a number, most significant first: the order of the bits of a field on the line (log 29). -/
def bitsOf : Nat → Nat → List Bool
  | 0, _ => []
  | w + 1, v => bitOf v w :: bitsOf w v

/-- One bit through the cyclic check with generator x^16 + x^12 + x^5 + 1 (10 section 10.6). -/
def checkStep (reg : Nat) (b : Bool) : Nat :=
  let shifted := reg * 2 % 65536
  if bitOf reg 15 = b then shifted else Nat.xor shifted 4129

/-- The check word over header and body bits, starting from all ones (10 section 10.6). -/
def checkWord (bits : List Bool) : Nat := bits.foldl checkStep 65535

/-- Header and body of a frame in the order they go out (10 section 10.6). -/
def frameBits (f : Frame) : List Bool :=
  bitsOf 2 f.cls ++ bitsOf 3 f.rank ++ bitsOf 4 f.source ++ bitsOf 4 f.dest ++ bitsOf 3 f.kind
    ++ bitsOf 6 f.body.length ++ f.body.flatMap (fun b => bitsOf 8 b.toNat)

/-- A frame as it goes out, check word last. -/
def wireBits (f : Frame) : List Bool := frameBits f ++ bitsOf 16 (checkWord (frameBits f))

/-! ### Receiving -/

/-- The header and body of a notice read from the line, as a frame. -/
def rxFrame (n : RxNotice) : Frame :=
  { cls := n.cls.toNat, rank := n.rank.toNat, source := n.source.toNat, dest := n.dest.toNat, kind := n.kind.toNat,
    body := n.body }

/-- Check 1 of 10 R155: the notice came to its end, and its check word is the computed one. -/
def rxComplete (n : RxNotice) : Bool :=
  n.complete && n.body.length = n.len.toNat && n.check.toNat = checkWord (frameBits (rxFrame n))

/-- Check 2 of 10 R155: the body length fixed for the kind, or within its range. -/
def rxLength (n : RxNotice) : Bool :=
  match n.kind.toNat with
  | 0 => n.len.toNat = 32
  | 1 | 2 => n.len.toNat = 1
  | 3 => n.len.toNat = 4
  | 4 => 2 ≤ n.len.toNat && n.len.toNat ≤ 32
  | 5 => 3 ≤ n.len.toNat && n.len.toNat ≤ 32
  | _ => true

/-- A source address of a station. -/
def stationSource (src : Nat) : Bool := src < 8

/-- Check 3 of 10 R155. -/
def rxSource (n : RxNotice) : Bool :=
  stationSource n.source.toNat || n.source.toNat = 14 || n.source.toNat = 15

/-- Check 4 of 10 R155: one of the six kinds, with its class; rank 0 in classes 0 and 1. -/
def rxKind (n : RxNotice) : Bool :=
  match n.kind.toNat with
  | 0 => n.cls.toNat = 2
  | 1 => n.cls.toNat = 0 && n.rank.toNat = 0
  | 2 | 3 | 4 | 5 => n.cls.toNat = 1 && n.rank.toNat = 0
  | _ => false

/-- Check 5 of 10 R155: the kind is one its source may send. -/
def rxKindSource (n : RxNotice) : Bool :=
  match n.kind.toNat with
  | 1 => stationSource n.source.toNat || n.source.toNat = 14
  | 4 => n.source.toNat = 14 || n.source.toNat = 15
  | _ => stationSource n.source.toNat

/-- The receive checks of 10 R155. -/
def rxPasses (n : RxNotice) : Bool :=
  rxComplete n && rxLength n && rxSource n && rxKind n && rxKindSource n

/-- A number of `k` bytes at a place of a body. -/
def fieldAt (bs : List Byte) (i k : Nat) : Nat := beNat ((bs.drop i).take k)

/-- The enumerated fields of a page lie in their lists (10 R155, section 10.6; log 22). -/
def pageValid (page : Nat) (d : List Byte) : Bool :=
  match page with
  | 0 => fieldAt d 3 1 / 32 < 5
  | 1 => fieldAt d 5 1 < 2
  | 4 => fieldAt d 0 1 / 64 < 3
  | 5 => fieldAt d 1 1 / 64 < 3
  | _ => true

/-- The body that 32 bytes spell; none where an enumerated field lies outside its list or the progress index above 8 (10
R155). -/
def parseState (bs : List Byte) : Option StateBody :=
  let b0 := fieldAt bs 0 1
  let b3 := fieldAt bs 3 1
  let b4 := fieldAt bs 4 1
  let b9 := fieldAt bs 9 1
  let chamber := fieldAt bs 17 2
  match decodeAt buildValues (b3 / 64), decodeAt modeValues (b4 / 32), decodeAt paceValues (b4 / 8 % 4),
    decodeAt driveValues (b9 / 32), decodeAt lineValues (b9 / 4 % 8) with
  | some build, some mode, some pace, some drive, some line =>
    if b3 / 4 % 16 ≤ 8 && pageValid (b0 % 8) (bs.drop 23) then
      some
        { roles := { screw := bitOf b0 7, erector := bitOf b0 6, drive := bitOf b0 5, line := bitOf b0 4 }
          ready := bitOf b0 3
          ring := fieldAt bs 1 2
          build := build
          index := b3 / 4 % 16
          mode := mode
          force := fieldAt bs 5 2
          advance := fieldAt bs 7 2
          drive := drive
          speed := fieldAt bs 10 2
          torque := fieldAt bs 12 2
          line := line
          volume := fieldAt bs 14 3
          chamber := if chamber = 65535 then none else some chamber
          pace := pace
          ownThrust := bitOf b3 1
          ownStall := bitOf b3 0
          tripInView := bitOf b4 2
          blind := bitOf b4 1
          alarms := BitVec.ofNat 16 (fieldAt bs 19 2)
          holds := BitVec.ofNat 16 (fieldAt bs 21 2)
          page := b0 % 8
          detail := bs.drop 23 }
    else none
  | _, _, _, _, _ => none

end Sys2Proof.Machine
end

