-- ==== Sys2Proof/Machine/Command.lean ====
section
/-! DEFINITION. Machine/Command.lean: how a COMMAND is taken, checked and answered (11 R161 to R164). -/

namespace Sys2Proof.Machine

open Sys2Proof

/-- What the owner of a command gives back: its result, the data of the REPLY notices it is answered with, whether the
REPLY is sent even for a broadcast answered DONE (11 R164), and the station after the effect. -/
structure Answer where
  result : Result
  state : State
  data : List (List Byte) := [[]]
  always : Bool := false

/-- The owner's refusal: the command has no effect (11 R162). -/
def refuse (r : Result) (s : State) : Answer := { result := r, state := s }

/-- The answer DONE to an effect. -/
def done (s : State) : Answer := { result := .done, state := s }

/-- One row of the command catalogue (11 section 11.3): its number, the sizes of its operands, the sources permitted,
the role it needs, the operands refused OUT OF RANGE, and its owner. -/
structure Command where
  number : Nat
  sizes : List Byte → List Nat
  permitted : CmdSource → List Nat → Bool := fun _ _ => true
  needs : List Nat → Roles → Bool := fun _ _ => true
  range : List Nat → State → Option Nat := fun _ _ => none
  owner : List Nat → State → Answer

/-- A command of service staff alone (11 R162). -/
def serviceOnly (src : CmdSource) : Bool := src = .service

/-- Whether a REPLY is sent (11 R164). -/
def replies (h : CmdHead) (r : Result) (always : Bool) : Bool := !h.toAll || r ≠ .done || always

/-- Queue the REPLY notices of a command, in the order of their data (11 R164, 10 R160). -/
def queueReplies (h : CmdHead) (number : Nat) (r : Result) (data : List (List Byte)) (s : State) : State :=
  data.foldl (fun t d => enqueue (.reply h.source number h.tag r d) t) s

/-- Answer a command (11 R164); the REPLY joins the queue after the notices of the command's effect (log 11). -/
def answer (h : CmdHead) (number : Nat) (a : Answer) : State :=
  if replies h a.result a.always then queueReplies h number a.result a.data a.state else a.state

/-- The form check of 11 R161, then the ordered checks of 11 R162, then the owner. In STARTING the notice is dropped; in
CONFIG FAULT the form and the source are checked and the command refused NOT READY. -/
def takeCommand (c : Command) (h : CmdHead) (ops : List Byte) (s : State) : State :=
  if s.life = .starting then s
  else
    answer h c.number
      (match splitFields (c.sizes ops) ops with
       | none => refuse (.outOfRange 15) s
       | some args =>
         if !c.permitted h.source args then refuse .notPermitted s
         else if s.life ≠ .ready then refuse .notReady s
         else if !c.needs args s.cfg.roles then refuse .notApplicable s
         else
           match c.range args s with
           | some p => refuse (.outOfRange p) s
           | none => c.owner args s)

end Sys2Proof.Machine
end

