-- ==== Sys2Proof/Machine/BuildFamily.lean ====
section
/-! DEFINITION. Machine/BuildFamily.lean: the commands of the build unit (03 R41 to R50, R55). -/

namespace Sys2Proof.Machine

open Sys2Proof

/-- SET MARGIN (03 R55): a margin watch event and a retraction decision event. -/
def setMarginCommand : Command where
  number := 5
  sizes := fun _ => [2]
  owner := fun args s =>
    let m := clamp 1000 2500 (arg args 0)
    { result := setpointResult .done [(arg args 0, m)]
      state := settle false (decideRetract (marginWatch { s with build := { s.build with margin := m } })) }

/-- An entry of LOAD PLAN is refused (03 R41, check 2). -/
def entryRefused (n : Nat) (last : Bool) (e : PlanEntry) : Bool :=
  if e.state = .empty then last
  else e.cover.isEmpty || 3 < e.cover.length || e.cover.any (fun a => n ≤ a) || e.key ≠ last

/-- The index of the first refused entry, counted from `i`. -/
def firstRefused (n : Nat) : Nat → List PlanEntry → Option Nat
  | _, [] => none
  | i, e :: es => if entryRefused n es.isEmpty e then some i else firstRefused n (i + 1) es

/-- Checks 1 and 2 of 03 R41: the position of the count, or of the first refused entry (11 R164: position 2 plus the
entry's index). -/
def planRange (args : List Nat) (s : State) : Option Nat :=
  if arg args 1 < 1 || 8 < arg args 1 then some 1
  else (firstRefused s.cfg.n 0 (planEntries (args.drop 2))).map (fun i => 2 + i)

/-- A held entry and a command's entry do not differ (03 R43, check 3). -/
def sameEntry (held given : PlanEntry) : Bool :=
  given.state ≠ .empty && held.piece = given.piece && held.key = given.key && held.cover = given.cover

/-- Two lists agree entry by entry. -/
def sameEntries : List PlanEntry → List PlanEntry → Bool
  | [], _ => true
  | h :: hs, g :: gs => sameEntry h g && sameEntries hs gs
  | _ :: _, [] => false

/-- A LOAD PLAN taken lowers PLAN MISMATCH and FEEDER MISMATCH (03 R63, 04 R76). -/
def lowerMismatches (s : State) : State :=
  { s with build := { s.build with planMismatch := false }, erector := { s.erector with feederMismatch := false } }

/-- LOAD PLAN in OPEN (03 R42). -/
def loadOpen (ring : Nat) (es : List PlanEntry) (s : State) : State :=
  lowerMismatches { s with build := { s.build with planRing := ring, entries := es, index := 0 } }

/-- LOAD PLAN in SUSPENDED (03 R43). -/
def loadSuspended (es : List PlanEntry) (s : State) : Answer :=
  if currentEntryState s = some .claimed || currentEntryState s = some .placed then refuse .busy s
  else if es.length ≤ s.build.index then refuse .planMismatch s
  else if !sameEntries (s.build.entries.take s.build.index) es then refuse .planMismatch s
  else
    done (settle false (lowerMismatches
      { s with
        build := { s.build with entries := s.build.entries.take s.build.index ++ es.drop s.build.index } }))

/-- LOAD PLAN (03 R41 to R43). -/
def loadPlanCommand : Command where
  number := 6
  sizes := planSizes
  range := planRange
  owner := fun args s =>
    let es := planEntries (args.drop 2)
    match s.build.state with
    | .building => refuse .busy s
    | .ringOpen =>
      if arg args 0 ≠ s.records.ring then refuse .planMismatch s
      else done (settle false (loadOpen (arg args 0) es s))
    | .suspended => if arg args 0 ≠ s.records.ring then refuse .planMismatch s else loadSuspended es s

/-- The first of the conditions of 03 R44 that is not met, as its result. -/
def beginRefusal (ring : Nat) (s : State) : Option Result :=
  if s.build.state ≠ .ringOpen then some .busy
  else if ring ≠ s.records.ring then some .planMismatch
  else if s.build.entries.isEmpty || s.build.planRing ≠ s.records.ring then some .notReady
  else if s.build.entries.any (fun e => e.state = .empty) then some .notReady
  else if s.thrust.mode ≠ .hold then some .notReady
  else if s.thrust.advance < s.cfg.w then some .notReady
  else if tripInView s then some .notReady
  else if s.view.blind then some .notReady
  else none

/-- The current record has a build part from a BEGIN BUILD on (09 R139). -/
def openBuildPart (s : State) : State :=
  { s with
    records :=
      { s.records with
        current :=
          { s.records.current with build := some (s.records.current.build.getD BuildPart.fresh) } } }

/-- A BEGIN BUILD taken (03 R45). -/
def startBuild (s : State) : State :=
  let s' := { s with build := { s.build with state := .building, index := 0, retry := none } }
  let stopped :=
    { s' with thrust := { s'.thrust with holds := { s'.thrust.holds with stopped := true } } }
  decideRetract (openBuildPart (setEntryState .pending stopped))

/-- BEGIN BUILD (03 R44, R45). -/
def beginBuildCommand : Command where
  number := 7
  sizes := fun _ => [2]
  owner := fun args s =>
    match beginRefusal (arg args 0) s with
    | some r => refuse r s
    | none => done (settle false (startBuild s))

/-- SUSPEND BUILD (03 R48). -/
def suspendBuildCommand : Command where
  number := 8
  sizes := fun _ => []
  owner := fun _ s => if s.build.state = .building then done (settle false (suspendBuild s)) else done s

/-- RESUME BUILD taken (03 R49). -/
def resumeBuilding (s : State) : State :=
  decideRetract { s with build := { s.build with state := .building, planMismatch := false, retry := none } }

/-- RESUME BUILD in SUSPENDED, by the entry at the progress index and the conditions, in the order of the table of 03
R49. -/
def resumeOwner (s : State) : Answer :=
  match currentEntryState s with
  | some .claimed | some .placed => refuse .busy s
  | some .pending =>
    if tripInView s || s.view.blind then refuse .notReady s
    else if erectorStation s = some s.own && s.erector.feederMismatch then refuse .notReady s
    else done (settle false (resumeBuilding s))
  | _ => refuse .planMismatch s

/-- RESUME BUILD (03 R49). -/
def resumeBuildCommand : Command where
  number := 9
  sizes := fun _ => []
  owner := fun _ s =>
    match s.build.state with
    | .ringOpen => refuse .busy s
    | .building => done s
    | .suspended => resumeOwner s

/-- ABANDON BUILD in BUILDING or SUSPENDED (03 R50); FEEDER MISMATCH is lowered (04 R76). -/
def abandonBuild (s : State) : State :=
  let s' := pressIfWithdrawn s
  onBuildPart (fun b => { b with abandoned := true })
    { s' with
      build :=
        { s'.build with
          state := .ringOpen, entries := [], planRing := 0, index := 0, retry := none, planMismatch := false,
          marginLow := false }
      erector := { s'.erector with feederMismatch := false } }

/-- ABANDON BUILD (03 R50). -/
def abandonBuildCommand : Command where
  number := 10
  sizes := fun _ => []
  owner := fun _ s => if s.build.state = .ringOpen then done s else done (settle false (abandonBuild s))

/-- Meaning of SET_MARGIN. -/
def execSetMargin (h : CmdHead) (ops : List Byte) (s : State) : Host.Outcome State Fault Refusal :=
  .next (takeCommand setMarginCommand h ops s)

/-- Meaning of LOAD_PLAN. -/
def execLoadPlan (h : CmdHead) (ops : List Byte) (s : State) : Host.Outcome State Fault Refusal :=
  .next (takeCommand loadPlanCommand h ops s)

/-- Meaning of BEGIN_BUILD. -/
def execBeginBuild (h : CmdHead) (ops : List Byte) (s : State) : Host.Outcome State Fault Refusal :=
  .next (takeCommand beginBuildCommand h ops s)

/-- Meaning of SUSPEND_BUILD. -/
def execSuspendBuild (h : CmdHead) (ops : List Byte) (s : State) : Host.Outcome State Fault Refusal :=
  .next (takeCommand suspendBuildCommand h ops s)

/-- Meaning of RESUME_BUILD. -/
def execResumeBuild (h : CmdHead) (ops : List Byte) (s : State) : Host.Outcome State Fault Refusal :=
  .next (takeCommand resumeBuildCommand h ops s)

/-- Meaning of ABANDON_BUILD. -/
def execAbandonBuild (h : CmdHead) (ops : List Byte) (s : State) : Host.Outcome State Fault Refusal :=
  .next (takeCommand abandonBuildCommand h ops s)

end Sys2Proof.Machine
end

