-- ==== Sys2Proof/Machine/PeerFamily.lean ====
section
/-! DEFINITION. Machine/PeerFamily.lean: the notices of other stations (01 R2 to R5, R15 to R20; 03 R47, R56, R57, R62; 10
R156; 12 R169) and the notice-period expiry (01 R4, R17; 03 R54; 10 R158; 12 R168). -/

namespace Sys2Proof.Machine

open Sys2Proof

/-! ### Lifecycle, conflicts -/

/-- The station becomes READY (12 R168); a line fault that holds makes it BLIND (01 R17). -/
def becomeReady (s : State) : State :=
  let s' := { s with life := .ready }
  if s.bus.lineFault then enterBlind s' else s'

/-- LISTENING ends with the listen count at k+1 and the probe marker set (12 R168). -/
def joinLine (s : State) : State :=
  if s.life = .listening && s.listen = s.cfg.k + 1 && s.probe then becomeReady s else s

/-- The role conflict checks (01 R19, R20). -/
def conflictEval (s : State) : State :=
  { s with
    view :=
      { s.view with
        screwConflict := s.cfg.roles.screw && lowerScrew s
        erectorConflict := s.cfg.roles.erector && lowerErector s } }

/-- An ERECTOR conflict puts the sequence in STANDBY as it begins, with one RELEASE from PLACING (01 R20). -/
def standAside (s : State) : State := if s.view.erectorConflict && s.erector.seq ≠ .standby then seqStep s else s

/-- The last STATE source takes the source of a received STATE, where that lies below N (10 R152). -/
def hearSource (src : Nat) (s : State) : State :=
  if src < s.cfg.n then { s with bus := { s.bus with lastSource := some src } } else s

/-- A foreign own-address notice (10 R156, 12 R168). One that is a STATE has passed the receive checks, and the bus
interface takes its source, the own address, as the last STATE source (10 R152); its body reaches no unit. -/
def foreignNotice (isState : Bool) (s : State) : State :=
  if s.running then
    let heard := if isState then hearSource s.own s else s
    settle false (countFault (if s.life = .listening then { heard with listen := 0 } else heard))
  else s

/-! ### STATE arrival -/

/-- The body replaces the stored one: age 0, FRESH, its pace in the pace field; the heard marker is set (01 R3, R5, R17).
The source becomes the last STATE source (10 R152). -/
def storeBody (src : Nat) (body : StateBody) (s : State) : State :=
  { s with
    view :=
      { s.view with
        peers :=
          s.view.peers.set src { held := some { body := body, age := 0, fresh := true }, pace := some body.pace }
        heard := true }
    bus := { s.bus with lastSource := some src } }

/-- The body lists a cause among the own trips. -/
def bodyLists (body : StateBody) : TripCause → Bool
  | .thrust => body.ownThrust
  | .stall => body.ownStall
  | .cabStop => false

/-- The trip memory after a STATE of a station: for its source, exactly the causes the body lists (01 R15, R16). -/
def tripsAfter (src : Nat) (body : StateBody) (l : List TripPair) : List TripPair :=
  let kept := l.filter (fun q => q.1 ≠ src || q.2 = .cabStop || bodyLists body q.2)
  let thrust := if body.ownThrust then withPair (src, .thrust) kept else kept
  if body.ownStall then withPair (src, .stall) thrust else thrust

/-- Catch-up by the STATE of the erector station in view (03 R57). -/
def stateCatchUp (body : StateBody) (s : State) : State :=
  if s.build.state ≠ .ringOpen && s.build.index < body.index then
    if body.index < s.build.entries.length then catchUp body.index s else raiseMismatch s
  else s

/-- The erector station's change from BUILDING to SUSPENDED is followed (03 R47). -/
def followSuspension (old : Option StateBody) (body : StateBody) (s : State) : State :=
  if body.build = .suspended && (old.map StateBody.build) = some .building then suspendBuild s else s

/-- The last ring: the erector station in view has closed ring 65,535, which hears no higher ring (03 R62). -/
def lastRingClosed (src : Nat) (old : Option StateBody) (body : StateBody) (s : State) : Bool :=
  s.records.ring = 65535 && s.build.state ≠ .ringOpen && erectorStation s = some src && body.ring = 65535
    && body.build = .ringOpen
    && (match old with | some o => o.ring = 65535 && o.build ≠ .ringOpen | none => false)

/-- What the body's ring number and build fields do: adoption in LISTENING (12 R169) and READY (03 R62), and following
the erector station in view on the own ring (03 R47, R57). -/
def ringArrival (src : Nat) (old : Option StateBody) (body : StateBody) (s : State) : State :=
  match s.life with
  | .listening => if s.records.ring < body.ring then openRing body.ring .adopted s else s
  | .ready =>
    if s.records.ring < body.ring then adoptRing body.ring s
    else if lastRingClosed src old body s then adoptRing 65535 s
    else if erectorStation s = some src && body.ring = s.records.ring then
      followSuspension old body (stateCatchUp body s)
    else s
  | _ => s

/-- The body held for a source, FRESH or STALE. -/
def storedBody (s : State) (src : Nat) : Option StateBody := (entryOf s src).held.map Heard.body

/-- STATE arrival from a taken source, handed on in the order of 01 R3, then to the build unit and the units that read a
derived quantity (01 R6). -/
def takeState (src : Nat) (body : StateBody) (s : State) : State :=
  let stored := storeBody src body s
  let known := leaveBlind (standAside (conflictEval (setTrips (tripsAfter src body s.view.trips) stored)))
  let rung := ringArrival src (storedBody s src) body known
  settle true (decideRetract (marginWatch (retryAtArrival rung)))

/-- STATE_ARRIVAL (01 R2, R3). A notice with the own address as its source is a foreign one (10 R156). -/
def stateArrival (src : Nat) (body : StateBody) (s : State) : State :=
  if src = s.own then foreignNotice true s
  else if s.running && takenSource s src then takeState src body s
  else s

/-! ### TRIP, PACE and STEP arrivals -/

/-- TRIP_ARRIVAL (01 R2, R15): THRUST or STALL from a taken station source, CAB STOP from the cab console. -/
def tripArrival (src : Nat) (cause : TripCause) (s : State) : State :=
  if src = s.own then foreignNotice false s
  else if s.running then
    if src = 14 then (if cause = .cabStop then settle false (addTrip (14, .cabStop) s) else s)
    else if takenSource s src && cause ≠ .cabStop then settle false (addTrip (src, cause) s)
    else s
  else s

/-- The pace field of an entry (01 R5). -/
def storePace (src : Nat) (p : Pace) (s : State) : State :=
  { s with
    view := { s.view with peers := s.view.peers.set src { (entryOf s src) with pace := some p } } }

/-- PACE_ARRIVAL (01 R5). -/
def paceArrival (src : Nat) (p : Pace) (s : State) : State :=
  if src = s.own then foreignNotice false s
  else if s.running && takenSource s src then settle true (storePace src p s)
  else s

/-- STEP_ARRIVAL (03 R56): taken by a READY station from another station's address. -/
def stepArrival (src : Nat) (a : StepAction) (ring index : Nat) (s : State) : State :=
  if src = s.own then foreignNotice false s
  else if s.life = .ready && takenSource s src then settle false (takeStep a ring index s)
  else s

/-! ### Notice-period expiry -/

/-- One entry at an aging expiry (01 R4). -/
def ageEntry (k : Nat) (e : PeerEntry) : PeerEntry :=
  match e.held with
  | none => e
  | some h =>
    let a := min (h.age + 1) 255
    { e with held := some { h with age := a, fresh := h.fresh && a ≤ k } }

/-- The ages of all entries rise (01 R4). -/
def ageView (s : State) : State := { s with view := { s.view with peers := s.view.peers.map (ageEntry s.cfg.k) } }

/-- The silence count after an aging expiry (01 R17). -/
def silenceAfter (s : State) : Nat :=
  if !s.view.heard then 0
  else if (freshPeers s).isEmpty then min (s.view.silence + 1) s.cfg.k
  else 0

/-- The BLIND silence count at an aging expiry; reaching k enters BLIND (01 R17). -/
def silenceEval (s : State) : State :=
  if s.life = .ready then
    let c := silenceAfter s
    let s' := { s with view := { s.view with silence := c } }
    if s.view.silence < s.cfg.k && c = s.cfg.k then enterBlind s' else s'
  else s

/-- The listen count at an expiry (12 R168). -/
def countListen (s : State) : State :=
  if s.life = .listening then { s with listen := min (s.listen + 1) (s.cfg.k + 1) } else s

/-- The peer view's and the lifecycle's part of a notice-period expiry, with the next expiry set. -/
def periodView (d : Nat) (s : State) : State :=
  let s' := clockTo d s
  let timed := { s' with clock := { s'.clock with noticeDue := some (d + s.cfg.tn) } }
  joinLine (countListen (standAside (conflictEval (silenceEval (ageView timed)))))

/-- NOTICE_PERIOD_EXPIRY: an expiry of the running notice-period timer (01 R4, 03 R52 to R54, 10 R158, 12 R168, log 3). -/
def noticePeriodExpiry (s : State) : State :=
  match s.clock.noticeDue with
  | none => s
  | some d => queueState (settle true (decideRetract (marginWatch (retryAtExpiry (periodView d s)))))

/-- The running retry wait ends at the next aging expiry (03 R54). -/
def retryEndsNext (s : State) : Bool :=
  match s.clock.noticeDue with
  | none => false
  | some d =>
    let t := periodView d s
    match t.build.retry with
    | some c => marginMet t && t.cfg.k ≤ c + 1
    | none => false

/-- RETRY_WAIT_END: the aging expiry at which the wait count reaches k (03 R54, log 4). -/
def retryWaitEnd (s : State) : State := if retryEndsNext s then noticePeriodExpiry s else s

/-- The silence count reaches k at the next aging expiry (01 R17). -/
def silenceEndsNext (s : State) : Bool :=
  s.clock.noticeDue.isSome && s.life = .ready && s.view.silence < s.cfg.k && silenceAfter (ageView s) = s.cfg.k

/-- SILENCE_COUNT_REACHING_K: the aging expiry at which the silence count reaches k (01 R17, log 4). -/
def silenceCountReachingK (s : State) : State := if silenceEndsNext s then noticePeriodExpiry s else s

/-- Meaning of STATE_ARRIVAL. -/
def execStateArrival (src : Nat) (body : StateBody) (s : State) : Host.Outcome State Fault Refusal :=
  .next (stateArrival src body s)

/-- Meaning of TRIP_ARRIVAL. -/
def execTripArrival (src : Nat) (cause : TripCause) (s : State) : Host.Outcome State Fault Refusal :=
  .next (tripArrival src cause s)

/-- Meaning of PACE_ARRIVAL. -/
def execPaceArrival (src : Nat) (p : Pace) (s : State) : Host.Outcome State Fault Refusal :=
  .next (paceArrival src p s)

/-- Meaning of STEP_ARRIVAL. -/
def execStepArrival (src : Nat) (a : StepAction) (ring index : Nat) (s : State) : Host.Outcome State Fault Refusal :=
  .next (stepArrival src a ring index s)

/-- Meaning of FOREIGN_OWN_ADDRESS_NOTICE, of a notice that is a STATE or is none. -/
def execForeignOwnAddressNotice (s : State) (isState : Bool := false) : Host.Outcome State Fault Refusal :=
  .next (foreignNotice isState s)

/-- Meaning of NOTICE_PERIOD_EXPIRY. -/
def execNoticePeriodExpiry (s : State) : Host.Outcome State Fault Refusal := .next (noticePeriodExpiry s)

/-- Meaning of RETRY_WAIT_END. -/
def execRetryWaitEnd (s : State) : Host.Outcome State Fault Refusal := .next (retryWaitEnd s)

/-- Meaning of SILENCE_COUNT_REACHING_K. -/
def execSilenceCountReachingK (s : State) : Host.Outcome State Fault Refusal := .next (silenceCountReachingK s)

end Sys2Proof.Machine
end

