-- ==== Sys2Proof/Machine/BusFamily.lean ====
section
/-! DEFINITION. Machine/BusFamily.lean: the offers of the bus interface (10 R151 to R154, R157, R158), and the occasions
of a line fault and of becoming READY (10 R154, 12 R168). -/

namespace Sys2Proof.Machine

open Sys2Proof

/-- OFFER_BEGIN (10 R151): the head notice is offered at an idle moment, a STATE with the contents and the rank of this
moment. -/
def offerBegin (s : State) : State :=
  match s.life, s.bus.offer, s.bus.queue with
  | .starting, _, _ => s
  | _, none, x :: rest =>
    { s with
      bus := { s.bus with queue := { x with offering := true } :: rest, offer := some (frameOf s x.notice) } }
  | _, _, _ => s

/-- The queue at the end of an offer that did not complete: its notice waits again, first of its class, behind the notices
of a lower class that joined meanwhile (10 R151, R158; DEDUCED, log 33). -/
def endOffer : List QueueItem → List QueueItem
  | [] => []
  | x :: xs =>
    if x.offering then
      xs.takeWhile (fun y => noticeClass y.notice < noticeClass x.notice)
        ++ { x with offering := false } :: xs.dropWhile (fun y => noticeClass y.notice < noticeClass x.notice)
    else x :: endOffer xs

/-- An offer ends with its notice left in the queue; the renewal mark is cleared (10 R153, R158). -/
def dropOffer (s : State) : State :=
  { s with bus := { s.bus with queue := endOffer s.bus.queue, offer := none, renewal := false } }

/-- CONTENTION_LOST (10 R151, R153). -/
def contentionLost (s : State) : State := if s.bus.offer.isSome then dropOffer s else s

/-- OFFER_FAILED (10 R153, R154). -/
def offerFailed (s : State) : State :=
  if s.bus.offer.isSome then settle false (countFault (dropOffer s)) else s

/-- The notice being offered. -/
def offeredNotice (q : List QueueItem) : Option TxNotice := (q.find? QueueItem.offering).map QueueItem.notice

/-- The bus interface at a completion (10 R152 to R154, R157, R158): the notice leaves the queue, the line-fault count and
condition end; a completed STATE advances the page count, makes the own address the last STATE source, and is queued again
when the renewal mark is set. -/
def busCompleted (own : Nat) (b : Bus) : Bus :=
  let q := b.queue.eraseP QueueItem.offering
  let isState := offeredNotice b.queue = some .state
  { queue := if isState && b.renewal then insertNotice .state q else q
    offer := none
    lastSource := if isState then some own else b.lastSource
    faults := 0
    lineFault := false
    renewal := false
    page := if isState then (b.page + 1) % 8 else b.page }

/-- The completion marker of a BLIND station and the probe marker of a LISTENING one are set (01 R18, 12 R168). -/
def markCompletion (s : State) : State :=
  { s with
    view := { s.view with completion := s.view.completion || s.view.blind }
    probe := s.probe || s.life = .listening }

/-- OFFER_COMPLETED (10 R153; 01 R18; 12 R168). -/
def offerCompleted (s : State) : State :=
  if s.bus.offer.isSome then
    settle false (joinLine (leaveBlind (markCompletion { s with bus := busCompleted s.own s.bus })))
  else s

/-- The line-fault count stands one below 16, so that the next failure or foreign notice raises the condition (10
R154). -/
def faultNext (s : State) : Bool := s.bus.faults = 15 && !s.bus.lineFault

/-- LINE_FAULT: the failed offer or the foreign own-address notice at which the line-fault count reaches 16 (10 R154, log
4). -/
def lineFault (by_ : FaultOccasion) (s : State) : State :=
  if faultNext s then
    match by_ with
    | .failedOffer => offerFailed s
    | .foreignNotice isState => foreignNotice isState s
  else s

/-- BECOME_READY: the expiry or the completion at which LISTENING ends (12 R168, log 4). -/
def becomeReadyAt (by_ : ReadyOccasion) (s : State) : State :=
  let t :=
    match by_ with
    | .expiry => noticePeriodExpiry s
    | .completion => offerCompleted s
  if s.life = .listening && t.life = .ready then t else s

/-- Meaning of OFFER_BEGIN. -/
def execOfferBegin (s : State) : Host.Outcome State Fault Refusal := .next (offerBegin s)

/-- Meaning of CONTENTION_LOST. -/
def execContentionLost (s : State) : Host.Outcome State Fault Refusal := .next (contentionLost s)

/-- Meaning of OFFER_FAILED. -/
def execOfferFailed (s : State) : Host.Outcome State Fault Refusal := .next (offerFailed s)

/-- Meaning of OFFER_COMPLETED. -/
def execOfferCompleted (s : State) : Host.Outcome State Fault Refusal := .next (offerCompleted s)

/-- Meaning of LINE_FAULT. -/
def execLineFault (by_ : FaultOccasion) (s : State) : Host.Outcome State Fault Refusal := .next (lineFault by_ s)

/-- Meaning of BECOME_READY. -/
def execBecomeReady (by_ : ReadyOccasion) (s : State) : Host.Outcome State Fault Refusal := .next (becomeReadyAt by_ s)

end Sys2Proof.Machine
end

