-- ==== Sys2Proof/Machine/DriveFamily.lean ====
section
/-! DEFINITION. Machine/DriveFamily.lean: the commands, inputs and timers of the drive unit (05). -/

namespace Sys2Proof.Machine

open Sys2Proof

/-- Entry into STARTING (05 R82). A torque that stands at or above the stall level already is compared at the next torque
reading (05 R87; DEDUCED, log 27). -/
def startDrive (target : Nat) (dir : Direction) (s : State) : State :=
  { s with
    drive :=
      { s.drive with
        state := .starting
        target := target
        direction := dir
        trim := 0
        command := if driveEnableOf s.drive then s.drive.command else min s.inputs.speed 450 } }

/-- The direction of an operand byte. -/
def directionOf (v : Nat) : Direction := if v = 0 then .cw else .ccw

/-- START CUTTERHEAD judged against the drive state, in the order of the table of 05 R81. -/
def startOwner (speed : Nat) (dir : Direction) (taken : Result) (s : State) : Answer :=
  match s.drive.state with
  | .stalled | .absent => refuse .busy s
  | .starting | .running =>
    if dir ≠ s.drive.direction then refuse .busy s
    else if speed = 0 then
      { result := taken, state := settle false (stopDrive { s with drive := { s.drive with target := 0 } }) }
    else { result := taken, state := settle false { s with drive := { s.drive with target := speed } } }
  | .off | .stopping =>
    if dir ≠ s.drive.direction && (s.drive.state = .stopping || 5 ≤ s.inputs.speed) then refuse .busy s
    else if speed = 0 then { result := taken, state := s }
    else if !startConditions s then refuse .notReady s
    else { result := taken, state := settle false (startDrive speed dir s) }

/-- START CUTTERHEAD (05 R81). -/
def startCutterheadCommand : Command where
  number := 12
  sizes := fun _ => [2, 1]
  needs := fun _ r => r.drive
  range := fun args _ => if 1 < arg args 1 then some 1 else none
  owner := fun args s =>
    let v := clamp 0 450 (arg args 0)
    startOwner v (directionOf (arg args 1)) (setpointResult .done [(arg args 0, v)]) s

/-- STOP CUTTERHEAD (05 R85). -/
def stopCutterheadCommand : Command where
  number := 13
  sizes := fun _ => []
  needs := fun _ r => r.drive
  owner := fun _ s =>
    if s.drive.state = .starting || s.drive.state = .running then done (settle false (stopDrive s)) else done s

/-- The new limits act on a running stall timer: a torque below the new level makes it idle, a start that already reaches
the new time makes it expire (05 R87). -/
def judgeStallTimer (s : State) : State :=
  match s.drive.stallStart with
  | none => s
  | some t =>
    if s.inputs.torque < s.drive.stallLevel then { s with drive := { s.drive with stallStart := none } }
    else if reached s t s.drive.stallTime then stallDrive s
    else s

/-- SET DRIVE LIMITS (05 R90). -/
def setDriveLimitsCommand : Command where
  number := 14
  sizes := fun _ => [2, 2, 1]
  needs := fun _ r => r.drive
  owner := fun args s =>
    let r := clamp 10 500 (arg args 0)
    let l := clamp 1100 1800 (arg args 1)
    let t := clamp 1 10 (arg args 2)
    { result := setpointResult .done [(arg args 0, r), (arg args 1, l), (arg args 2, t)]
      state :=
        settle false (judgeStallTimer { s with drive := { s.drive with ramp := r, stallLevel := l, stallTime := t } }) }

/-- MEASURED_SPEED_READING (05 R79, R86; an event for v_lim at a station with a drive, 02 R36). -/
def measuredSpeedReading (r : Reading) (s : State) : State :=
  let s' := { s with inputs := { s.inputs with speed := readingOr 0 600 r } }
  if s.running && s.drive.state ≠ .absent then settle true (endStop s') else s'

/-- A torque reading against the stall level, and the peak torque (05 R87, R91). -/
def judgeTorque (v : Nat) (s : State) : State :=
  if stallWatched s.drive.state then
    { s with
      drive :=
        { s.drive with
          peakTorque := max s.drive.peakTorque v
          stallStart :=
            if s.drive.stallLevel ≤ v then some (s.drive.stallStart.getD s.clock.now) else none } }
  else s

/-- TORQUE_READING (05 R79, R87). -/
def torqueReading (r : Reading) (s : State) : State :=
  let v := readingOr 2000 2000 r
  let s' := { s with inputs := { s.inputs with torque := v } }
  if s.running && s.drive.state ≠ .absent then settle false (judgeTorque v s') else s'

/-- STALL_TIMER_EXPIRY: the running stall timer expires (05 R88, log 3). -/
def stallTimerExpiry (s : State) : State :=
  match s.drive.stallStart with
  | none => s
  | some t => if s.running then settle false (stallDrive (clockTo (t + s.drive.stallTime * 1000) s)) else s

/-- The load-sharing trim of a RUNNING drive (05 R84). -/
def trimOf (s : State) : Int :=
  let mean : Int := ((meanTorque s).getD s.inputs.torque : Nat)
  let raw := -roundInt (((s.inputs.torque : Int) - mean) * s.drive.target) 2000
  clampSym (roundInt s.drive.target 20) raw

/-- The aim: target plus trim, clamped to 0 to 450 (05 R83). -/
def aimOf (d : Drive) : Nat := min ((d.target : Int) + d.trim).toNat 450

/-- One step of the ramp: a tenth of the rate, rounded (05 R83). -/
def rampStep (d : Drive) : Nat := roundNat d.ramp 10

/-- The command moved by at most one step toward the aim (05 R83). -/
def moveToward (aim step command : Nat) : Nat :=
  if command ≤ aim then (if aim - command ≤ step then aim else command + step)
  else if command - aim ≤ step then aim
  else command - step

/-- The stop step of an interval (05 R86). -/
def stopStep (s : State) : Nat := if tripInView s || s.view.blind then s.drive.ramp else rampStep s.drive

/-- One drive interval of a STARTING or RUNNING drive: trim, aim, step, move, arrival (05 R83). -/
def rampInterval (s : State) : State :=
  let trimmed :=
    if s.drive.state = .running then { s with drive := { s.drive with trim := trimOf s } } else s
  let c := moveToward (aimOf trimmed.drive) (rampStep s.drive) s.drive.command
  { trimmed with
    drive :=
      { trimmed.drive with
        command := c
        state := if s.drive.state = .starting && c = s.drive.target then .running else s.drive.state } }

/-- One drive interval of a STOPPING drive (05 R86). -/
def stopInterval (s : State) : State :=
  endStop { s with drive := { s.drive with command := moveToward 0 (stopStep s) s.drive.command } }

/-- The revolution accumulator takes the measured speed until the revolutions stand at 999,999 (05 R91). -/
def countRevolutions (s : State) : State :=
  if revolutions s < 999999 then
    { s with drive := { s.drive with accumulator := s.drive.accumulator + s.inputs.speed } }
  else s

/-- The drive's work at its interval. -/
def driveWork (s : State) : State :=
  match s.drive.state with
  | .absent => s
  | .starting | .running => rampInterval (countRevolutions s)
  | .stopping => stopInterval (countRevolutions s)
  | .off | .stalled => countRevolutions s

/-- DRIVE_INTERVAL: an expiry of the running drive-interval timer (05 R83, R84, R86, R91, log 3). -/
def driveInterval (s : State) : State :=
  match s.clock.driveDue with
  | none => s
  | some d =>
    let s' := clockTo d s
    settle false (driveWork { s' with clock := { s'.clock with driveDue := some (d + 100) } })

/-- Meaning of START_CUTTERHEAD. -/
def execStartCutterhead (h : CmdHead) (ops : List Byte) (s : State) : Host.Outcome State Fault Refusal :=
  .next (takeCommand startCutterheadCommand h ops s)

/-- Meaning of STOP_CUTTERHEAD. -/
def execStopCutterhead (h : CmdHead) (ops : List Byte) (s : State) : Host.Outcome State Fault Refusal :=
  .next (takeCommand stopCutterheadCommand h ops s)

/-- Meaning of SET_DRIVE_LIMITS. -/
def execSetDriveLimits (h : CmdHead) (ops : List Byte) (s : State) : Host.Outcome State Fault Refusal :=
  .next (takeCommand setDriveLimitsCommand h ops s)

/-- Meaning of MEASURED_SPEED_READING. -/
def execMeasuredSpeedReading (r : Reading) (s : State) : Host.Outcome State Fault Refusal :=
  .next (measuredSpeedReading r s)

/-- Meaning of TORQUE_READING. -/
def execTorqueReading (r : Reading) (s : State) : Host.Outcome State Fault Refusal := .next (torqueReading r s)

/-- Meaning of STALL_TIMER_EXPIRY. -/
def execStallTimerExpiry (s : State) : Host.Outcome State Fault Refusal := .next (stallTimerExpiry s)

/-- Meaning of DRIVE_INTERVAL. -/
def execDriveInterval (s : State) : Host.Outcome State Fault Refusal := .next (driveInterval s)

end Sys2Proof.Machine
end

