-- ==== Sys2Proof/Machine/ErectorFamily.lean ====
section
/-! DEFINITION. Machine/ErectorFamily.lean: the command and inputs of the erector unit (04 R66, R67, R71). -/

namespace Sys2Proof.Machine

open Sys2Proof

/-- The feeder queue with its head removed; FEEDER OVERFULL is lowered when it becomes empty (04 R76). -/
def removeHead (s : State) : State :=
  { s with
    erector :=
      { s.erector with
        queue := s.erector.queue.drop 1
        feederOverfull := s.erector.feederOverfull && !(s.erector.queue.drop 1).isEmpty } }

/-- DISCARD PIECE (04 R67). -/
def discardPieceCommand : Command where
  number := 11
  sizes := fun _ => []
  needs := fun _ r => r.erector
  owner := fun _ s =>
    if s.erector.seq = .placing then refuse .busy s
    else
      match s.erector.queue with
      | [] => { result := .done, state := s, data := [pieceData none], always := true }
      | p :: _ =>
        let s' := removeHead s
        { result := .done
          state := settle false { s' with erector := { s'.erector with feederMismatch := false } }
          data := [pieceData (some p)]
          always := true }

/-- A piece is appended to the feeder queue, or turned away with FEEDER OVERFULL (04 R66). -/
def takePiece (piece : Nat) (key : Bool) (e : Erector) : Erector :=
  if e.queue.length < 8 then
    { e with
      queue := e.queue ++ [{ piece := piece, key := key, arrival := e.arrival }]
      arrival := (e.arrival + 1) % 256
      feederEmpty := false }
  else { e with feederOverfull := true }

/-- PIECE_IN_STROBE (04 R66). -/
def pieceInStrobe (piece : BitVec 3) (key : Bool) (s : State) : State :=
  if s.running && s.cfg.roles.erector then
    settle false { s with erector := takePiece piece.toNat key s.erector }
  else s

/-- The rising edge of the seated input in PLACING: the head record leaves, STEP PLACED is issued, AWAITING PRESS follows
(04 R71). -/
def seatPiece (s : State) : State :=
  match s.erector.seq, s.erector.working with
  | .placing, some w => issueStep .placed w (setSeq .awaitingPress (removeHead s))
  | _, _ => s

/-- SEATED_INPUT with its new level (04 R71). -/
def seatedInput (level : Bool) (s : State) : State :=
  let s' := { s with inputs := { s.inputs with seated := level } }
  if s.running && s.cfg.roles.erector && level && !s.inputs.seated then settle false (seatPiece s') else s'

/-- Meaning of DISCARD_PIECE. -/
def execDiscardPiece (h : CmdHead) (ops : List Byte) (s : State) : Host.Outcome State Fault Refusal :=
  .next (takeCommand discardPieceCommand h ops s)

/-- Meaning of PIECE_IN_STROBE. -/
def execPieceInStrobe (piece : BitVec 3) (key : Bool) (s : State) : Host.Outcome State Fault Refusal :=
  .next (pieceInStrobe piece key s)

/-- Meaning of SEATED_INPUT. -/
def execSeatedInput (level : Bool) (s : State) : Host.Outcome State Fault Refusal := .next (seatedInput level s)

end Sys2Proof.Machine
end

