-- ==== Sys2Proof/Machine/GroutFamily.lean ====
section
/-! DEFINITION. Machine/GroutFamily.lean: the commands, inputs and timers of the grout unit (08). -/

namespace Sys2Proof.Machine

open Sys2Proof

/-- SET GROUT (08 R126): the clamped set is pending until the ring closes. -/
def setGroutCommand : Command where
  number := 20
  sizes := fun _ => [2, 2, 2, 2]
  needs := fun _ r => r.line
  owner := fun args s =>
    let o := clamp 0 s.cfg.w (arg args 0)
    let c := clamp 0 s.cfg.w (arg args 1)
    let r := clamp 1000 2000 (arg args 2)
    let l := clamp 50 800 (arg args 3)
    { result := setpointResult .deferred [(arg args 0, o), (arg args 1, c), (arg args 2, r), (arg args 3, l)]
      state :=
        { s with grout := { s.grout with waiting := some { opens := o, closes := c, ratio := r, limit := l } } } }

/-- ARM LINE at a present line, in the order of the table of 08 R122. DEDUCED (log 32): a line pressure that stands above the
limit when a CLOSED line is armed is compared at the next reading or ring close, not here (08 R133). -/
def armOwner (s : State) : Answer :=
  match s.grout.line with
  | .closed =>
    let s' := setLine .armed s
    done (settle false { s' with grout := { s'.grout with potStart := some s.clock.now } })
  | .armed | .injecting => done s
  | .tripped =>
    if s.grout.setting then refuse .busy s
    else if s.grout.active.limit ≤ s.inputs.linePressure then refuse .busy s
    else done (settle false (setLine .armed s))
  | .flushing | .absent => refuse .busy s

/-- ARM LINE (08 R122). -/
def armLineCommand : Command where
  number := 21
  sizes := fun _ => []
  needs := fun _ r => r.line
  owner := fun _ s => armOwner s

/-- CLOSE LINE at a present line (08 R130). -/
def closeOwner (s : State) : Answer :=
  match s.grout.line with
  | .armed | .injecting => done (settle false (if s.grout.used then startFlush s else setLine .closed s))
  | .closed => done s
  | .flushing | .tripped | .absent => refuse .busy s

/-- CLOSE LINE (08 R130). -/
def closeLineCommand : Command where
  number := 22
  sizes := fun _ => []
  needs := fun _ r => r.line
  owner := fun _ s => closeOwner s

/-- FLUSH LINE at a present line (08 R131). -/
def flushOwner (s : State) : Answer :=
  match s.grout.line with
  | .closed | .armed => done (settle false (startFlush s))
  | .tripped =>
    if s.inputs.linePressure < s.grout.active.limit then done (settle false (startFlush s)) else refuse .busy s
  | .injecting | .flushing | .absent => refuse .busy s

/-- FLUSH LINE (08 R131). -/
def flushLineCommand : Command where
  number := 23
  sizes := fun _ => []
  needs := fun _ r => r.line
  owner := fun _ s => flushOwner s

/-- A running pot-life timer whose start already reaches the pot life expires (08 R134). -/
def judgePotLife (s : State) : State :=
  match s.grout.potStart with
  | some t => if reached s t s.grout.potLife then potLifeExpires s else s
  | none => s

/-- A running flush timer whose start already reaches the flush duration expires (08 R134). -/
def judgeFlush (s : State) : State :=
  match s.grout.flushStart with
  | some t => if reached s t s.grout.flushTime then endFlush s else s
  | none => s

/-- SET GROUT TIMES (08 R134). -/
def setGroutTimesCommand : Command where
  number := 24
  sizes := fun _ => [2, 2]
  needs := fun _ r => r.line
  owner := fun args s =>
    let p := clamp 300 7200 (arg args 0)
    let f := clamp 10 600 (arg args 1)
    let set := { s with grout := { s.grout with potLife := p, flushTime := f } }
    { result := setpointResult .done [(arg args 0, p), (arg args 1, f)]
      state := settle false (judgePotLife (judgeFlush set)) }

/-- SET GROUT MINIMUM (08 R135): clamped to 8, then to N. -/
def setGroutMinimumCommand : Command where
  number := 25
  sizes := fun _ => [1]
  owner := fun args s =>
    let g := min (min (arg args 0) 8) s.cfg.n
    { result := setpointResult .done [(arg args 0, g)]
      state := settle false { s with grout := { s.grout with gmin := g } } }

/-- The computed pump rate of a control second, before the pump maximum (08 R127). -/
def computedRate (s : State) (dl : Nat) : Nat :=
  roundNat (dl * s.cfg.aa * s.grout.active.ratio * 60) (1000 * max (groutReady s) 1 * s.cfg.vs)

/-- The grout unit's work at a control second (08 R127, R128). -/
def groutSecond (s : State) : State :=
  if s.grout.line = .absent then s
  else
    let dl := s.thrust.advance - s.grout.sample
    let sampled := { s with grout := { s.grout with sample := s.thrust.advance } }
    if lineReady s.grout.line then
      let c := computedRate s dl
      let rated := { sampled with grout := { sampled.grout with rate := min c s.cfg.pumpMax } }
      if s.grout.line = .injecting then
        if s.cfg.pumpMax < c then
          onGroutPart (fun g => { g with lineSaturated := true })
            { rated with grout := { rated.grout with saturated := true } }
        else { rated with grout := { rated.grout with saturated := false } }
      else rated
    else sampled

/-- LINE_PRESSURE_READING (08 R120, R133). -/
def linePressureReading (r : Reading) (s : State) : State :=
  let s' := { s with inputs := { s.inputs with linePressure := readingOr 1000 1000 r } }
  if s.running then settle false (judgeLinePressure s') else s'

/-- STROKE_PULSE (08 R129). -/
def strokePulse (s : State) : State :=
  if s.running && s.grout.line = .injecting then
    settle false
      { s with
        grout :=
          { s.grout with
            strokes := min (s.grout.strokes + 1) 99999
            volume := min (s.grout.volume + s.cfg.vs) 9999999
            potStart := some s.clock.now } }
  else s

/-- POT_LIFE_EXPIRY: the running pot-life timer expires (08 R132, log 3). -/
def potLifeExpiry (s : State) : State :=
  match s.grout.potStart with
  | none => s
  | some t => if s.running then settle false (potLifeExpires (clockTo (t + s.grout.potLife * 1000) s)) else s

/-- FLUSH_TIMER_EXPIRY: the running flush timer expires (08 R131, log 3). -/
def flushTimerExpiry (s : State) : State :=
  match s.grout.flushStart with
  | none => s
  | some t => if s.running then settle false (endFlush (clockTo (t + s.grout.flushTime * 1000) s)) else s

/-- Meaning of SET_GROUT. -/
def execSetGrout (h : CmdHead) (ops : List Byte) (s : State) : Host.Outcome State Fault Refusal :=
  .next (takeCommand setGroutCommand h ops s)

/-- Meaning of ARM_LINE. -/
def execArmLine (h : CmdHead) (ops : List Byte) (s : State) : Host.Outcome State Fault Refusal :=
  .next (takeCommand armLineCommand h ops s)

/-- Meaning of CLOSE_LINE. -/
def execCloseLine (h : CmdHead) (ops : List Byte) (s : State) : Host.Outcome State Fault Refusal :=
  .next (takeCommand closeLineCommand h ops s)

/-- Meaning of FLUSH_LINE. -/
def execFlushLine (h : CmdHead) (ops : List Byte) (s : State) : Host.Outcome State Fault Refusal :=
  .next (takeCommand flushLineCommand h ops s)

/-- Meaning of SET_GROUT_TIMES. -/
def execSetGroutTimes (h : CmdHead) (ops : List Byte) (s : State) : Host.Outcome State Fault Refusal :=
  .next (takeCommand setGroutTimesCommand h ops s)

/-- Meaning of SET_GROUT_MINIMUM. -/
def execSetGroutMinimum (h : CmdHead) (ops : List Byte) (s : State) : Host.Outcome State Fault Refusal :=
  .next (takeCommand setGroutMinimumCommand h ops s)

/-- Meaning of LINE_PRESSURE_READING. -/
def execLinePressureReading (r : Reading) (s : State) : Host.Outcome State Fault Refusal :=
  .next (linePressureReading r s)

/-- Meaning of STROKE_PULSE. -/
def execStrokePulse (s : State) : Host.Outcome State Fault Refusal := .next (strokePulse s)

/-- Meaning of POT_LIFE_EXPIRY. -/
def execPotLifeExpiry (s : State) : Host.Outcome State Fault Refusal := .next (potLifeExpiry s)

/-- Meaning of FLUSH_TIMER_EXPIRY. -/
def execFlushTimerExpiry (s : State) : Host.Outcome State Fault Refusal := .next (flushTimerExpiry s)

end Sys2Proof.Machine
end

