-- ==== Sys2Proof/Machine/FaceFamily.lean ====
section
/-! DEFINITION. Machine/FaceFamily.lean: SET FACE PRESSURE, the chamber pressure cell and the belt-silence timer (06). -/

namespace Sys2Proof.Machine

open Sys2Proof

/-- SET FACE PRESSURE (06 R105). NO TARGET leaves at the end of the event (06 R104). -/
def setFacePressureCommand : Command where
  number := 15
  sizes := fun _ => [2, 1, 1]
  needs := fun _ r => r.screw
  owner := fun args s =>
    let t := clamp 0 600 (arg args 0)
    let b := clamp 5 100 (arg args 1)
    let g := clamp 0 100 (arg args 2)
    { result := setpointResult .done [(arg args 0, t), (arg args 1, b), (arg args 2, g)]
      state := settle false { s with screw := { s.screw with target := some t, band := b, gain := g } } }

/-- CHAMBER_PRESSURE_READING (01 R7): a margin watch event, and a retraction decision event at a station of the crown set
(03 R52, R53). An input outside its range is NO READING. -/
def chamberPressureReading (r : Reading) (s : State) : State :=
  let s' := { s with inputs := { s.inputs with chamber := r.map (fun v => min v 1000) } }
  if s.running then
    let watched := marginWatch s'
    settle false (if (crownSet s).contains s.own then decideRetract watched else watched)
  else s'

/-- The belt-silence timer expires: BELT SILENT joins, the timer returns to idle (06 R102). -/
def beltSilent (s : State) : State :=
  { s with
    screw := { s.screw with beltStart := none }
    train := { s.train with reasons := { s.train.reasons with beltSilent := true } } }

/-- BELT_SILENCE_EXPIRY: the running belt-silence timer expires (06 R102, log 3). -/
def beltSilenceExpiry (s : State) : State :=
  match s.screw.beltStart with
  | none => s
  | some t => if s.running then settle false (beltSilent (clockTo (t + s.screw.beltTime * 1000) s)) else s

/-- The raw screw command of a control second (06 R97). -/
def rawCommand (s : State) (dl pc target : Nat) : Int :=
  (roundNat (s.cfg.af * dl * 3) (5 * s.cfg.vrev) : Int) + roundInt ((s.screw.gain : Int) * ((pc : Int) - target)) 10

/-- Slew, then clamp (06 R98). -/
def slewed (nmax prev : Nat) (raw : Int) : Nat :=
  let v : Int := max ((prev : Int) - 5) (min raw ((prev : Int) + 5))
  min v.toNat nmax

/-- The screw's work at a control second: the advance sample, and in RUNNING the new command, which begins or ends the
belt-silence watch (06 R96 to R98, R102). -/
def screwSecond (s : State) : State :=
  let dl := s.view.lring - s.screw.sample
  let sampled := { s with screw := { s.screw with sample := s.view.lring } }
  match s.screw.state, s.screw.target, controlPressure s with
  | .running, some t, some pc =>
    let c := slewed s.cfg.nmax s.screw.command (rawCommand s dl pc t)
    { sampled with
      screw :=
        { sampled.screw with
          command := c
          beltStart :=
            if c = 0 then none
            else if s.screw.command = 0 then some s.clock.now
            else s.screw.beltStart } }
  | _, _, _ => sampled

/-- The judgement of the chamber against the band at a control second (06 R100). -/
def bandSecond (s : State) : State :=
  match s.screw.target, controlPressure s with
  | some t, some pc =>
    if s.screw.state = .stopped then { s with screw := { s.screw with pressureBand := false } }
    else if t ≤ pc + s.screw.band && pc ≤ t + s.screw.band then
      { s with screw := { s.screw with pressureBand := false } }
    else
      onSpoilPart (fun p => { p with pressureBand := true }) { s with screw := { s.screw with pressureBand := true } }
  | _, _ => { s with screw := { s.screw with pressureBand := false } }

/-- Meaning of SET_FACE_PRESSURE. -/
def execSetFacePressure (h : CmdHead) (ops : List Byte) (s : State) : Host.Outcome State Fault Refusal :=
  .next (takeCommand setFacePressureCommand h ops s)

/-- Meaning of CHAMBER_PRESSURE_READING. -/
def execChamberPressureReading (r : Reading) (s : State) : Host.Outcome State Fault Refusal :=
  .next (chamberPressureReading r s)

/-- Meaning of BELT_SILENCE_EXPIRY. -/
def execBeltSilenceExpiry (s : State) : Host.Outcome State Fault Refusal := .next (beltSilenceExpiry s)

end Sys2Proof.Machine
end

