-- ==== Sys2Proof/Machine/TrainFamily.lean ====
section
/-! DEFINITION. Machine/TrainFamily.lean: the commands and pulses of the train unit (07). -/

namespace Sys2Proof.Machine

open Sys2Proof

/-- An empty car of a capacity (07 R109). -/
def emptyCar (capacity : Nat) (state : CarState) : Car :=
  { capacity := capacity, filled := 0, additive := 0, state := state, flagAdditive := false, flagOver := false,
    flagShort := false }

/-- The cars of a TRAIN IN: car 1 FILLING, with the flag OVER while the reason OVER is present, the others WAITING (07
R109, R114). -/
def newTrain (count capacity : Nat) (isOver : Bool) : List Car :=
  { emptyCar capacity .filling with flagOver := isOver } :: List.replicate (count - 1) (emptyCar capacity .waiting)

/-- TRAIN IN (07 R109). -/
def trainInCommand : Command where
  number := 17
  sizes := fun _ => [1, 2]
  needs := fun _ r => r.screw
  range := fun args _ => if arg args 0 < 1 || 8 < arg args 0 then some 0 else none
  owner := fun args s =>
    if !s.train.cars.isEmpty then refuse .busy s
    else
      let c := clamp 1000 40000 (arg args 1)
      { result := setpointResult .done [(arg args 0, arg args 0), (arg args 1, c)]
        state :=
          settle false
            { s with train := { s.train with cars := newTrain (arg args 0) c s.train.reasons.isOver } } }

/-- The flags ADDITIVE and SHORT that a car takes at TRAIN OUT (07 R114). -/
def flagOut (c : Car) : Car :=
  { c with
    flagAdditive := c.flagAdditive || c.filled < c.additive * 10
    flagShort := c.flagShort || c.state = .filling }

/-- TRAIN OUT (07 R113). -/
def trainOutCommand : Command where
  number := 18
  sizes := fun _ => []
  needs := fun _ r => r.screw
  owner := fun _ s =>
    { result := .done
      state := settle false { s with train := { s.train with cars := [], mass := 0, overflow := 0 } }
      data := [trainReport (s.train.cars.map flagOut)]
      always := true }

/-- SET PACE LEVELS (07 R119); a running belt-silence timer whose start already reaches the new time expires (06 R102). -/
def setPaceLevelsCommand : Command where
  number := 19
  sizes := fun _ => [3, 3, 1]
  needs := fun _ r => r.screw
  owner := fun args s =>
    let hold := clamp 0 200000 (arg args 0)
    let slow := max (clamp 0 200000 (arg args 1)) hold
    let belt := clamp 5 120 (arg args 2)
    let set :=
      { s with
        train := { s.train with holdLevel := hold, slowLevel := slow }
        screw := { s.screw with beltTime := belt } }
    let timed :=
      match s.screw.beltStart with
      | some t => if reached s t belt then beltSilent set else set
      | none => set
    { result := setpointResult .done [(arg args 0, hold), (arg args 1, slow), (arg args 2, belt)]
      state := settle false timed }

/-- The WAITING car at the next position becomes FILLING (07 R111). -/
def startNextCar (isOver : Bool) : List Car → List Car
  | [] => []
  | c :: cs =>
    if c.state = .waiting then { c with state := .filling, flagOver := c.flagOver || isOver } :: cs else c :: cs

/-- A belt pulse of `kg` given to the FILLING car (07 R110, R111). -/
def fillCars (isOver : Bool) (kg : Nat) : List Car → List Car
  | [] => []
  | c :: cs =>
    if c.state = .filling then
      if c.capacity ≤ c.filled + kg then { c with filled := c.filled + kg, state := .full } :: startNextCar isOver cs
      else { c with filled := c.filled + kg } :: cs
    else c :: fillCars isOver kg cs

/-- A car is FILLING. -/
def anyFilling (cars : List Car) : Bool := cars.any (fun c => c.state = .filling)

/-- A belt pulse at the train unit (07 R110). -/
def trainPulse (kg : Nat) (t : Train) : Train :=
  if 9999999 < t.mass + kg then t
  else if anyFilling t.cars then { t with cars := fillCars t.reasons.isOver kg t.cars, mass := t.mass + kg }
  else { t with overflow := t.overflow + kg, mass := t.mass + kg }

/-- A belt pulse at the spoil part (09 R140). -/
def spoilBelt (kg : Nat) (p : SpoilPart) : SpoilPart :=
  if 9999999 < p.belt + kg then { p with massAtLimit := true } else { p with belt := p.belt + kg }

/-- An additive pulse at the spoil part (09 R140). -/
def spoilAdditive (kg : Nat) (p : SpoilPart) : SpoilPart :=
  if 9999999 < p.additive + kg then { p with massAtLimit := true } else { p with additive := p.additive + kg }

/-- A belt pulse at the screw unit: BELT SILENT leaves, a watched timer restarts (06 R102, R103). -/
def beltHeard (s : State) : State :=
  { s with
    train := { s.train with reasons := { s.train.reasons with beltSilent := false } }
    screw :=
      { s.screw with
        beltStart :=
          if s.screw.state = .running && 0 < s.screw.command then some s.clock.now else s.screw.beltStart } }

/-- BELT_PULSE (07 R110, R111; 06 R102, R103; 09 R140). -/
def beltPulse (s : State) : State :=
  if s.running && s.cfg.roles.screw then
    settle false
      (beltHeard (onSpoilPart (spoilBelt s.cfg.beltScale) { s with train := trainPulse s.cfg.beltScale s.train }))
  else s

/-- An additive pulse at the train unit (07 R112). -/
def trainAdditive (kg : Nat) (t : Train) : Train :=
  { t with
    cars :=
      t.cars.map (fun c => if c.state = .filling then { c with additive := min (c.additive + kg) 9999999 } else c) }

/-- ADDITIVE_PULSE (07 R112, 09 R140). -/
def additivePulse (s : State) : State :=
  if s.running && s.cfg.roles.screw then
    settle false (onSpoilPart (spoilAdditive s.cfg.addScale) { s with train := trainAdditive s.cfg.addScale s.train })
  else s

/-- Meaning of TRAIN_IN. -/
def execTrainIn (h : CmdHead) (ops : List Byte) (s : State) : Host.Outcome State Fault Refusal :=
  .next (takeCommand trainInCommand h ops s)

/-- Meaning of TRAIN_OUT. -/
def execTrainOut (h : CmdHead) (ops : List Byte) (s : State) : Host.Outcome State Fault Refusal :=
  .next (takeCommand trainOutCommand h ops s)

/-- Meaning of SET_PACE_LEVELS. -/
def execSetPaceLevels (h : CmdHead) (ops : List Byte) (s : State) : Host.Outcome State Fault Refusal :=
  .next (takeCommand setPaceLevelsCommand h ops s)

/-- Meaning of BELT_PULSE. -/
def execBeltPulse (s : State) : Host.Outcome State Fault Refusal := .next (beltPulse s)

/-- Meaning of ADDITIVE_PULSE. -/
def execAdditivePulse (s : State) : Host.Outcome State Fault Refusal := .next (additivePulse s)

end Sys2Proof.Machine
end

