-- ==== Sys2Proof/Machine/RecordFamily.lean ====
section
/-! DEFINITION. Machine/RecordFamily.lean: the commands of the ring record unit and the control second (09, 00 Timers and
events). -/

namespace Sys2Proof.Machine

open Sys2Proof

/-- SET BALANCE LIMITS (09 R143): clamp, order, store in the pending slot. -/
def setBalanceLimitsCommand : Command where
  number := 16
  sizes := fun _ => [2, 2]
  needs := fun _ r => r.screw
  owner := fun args s =>
    let lo := clamp 500 2000 (arg args 0)
    let hi := max (clamp 500 2000 (arg args 1)) lo
    { result := setpointResult .deferred [(arg args 0, lo), (arg args 1, hi)]
      state := { s with records := { s.records with waitingLimits := some { lower := lo, upper := hi } } } }

/-- READ RECORD (09 R147): the current record in two sheets. -/
def readRecordCommand : Command where
  number := 26
  sizes := fun _ => []
  owner := fun _ s =>
    { result := .done, state := s, data := [sheetOne s.records.current, sheetTwo s.records.current], always := true }

/-- The data of a READ HISTORY: the record of a rank, 0 the newest, or EMPTY (09 R147, 10 R160). -/
def historyData (history : List Record) (rank : Nat) : List (List Byte) :=
  match history.reverse[rank]? with
  | some r => [sheetOne r, sheetTwo r]
  | none => [sheetEmpty]

/-- READ HISTORY (09 R147). -/
def readHistoryCommand : Command where
  number := 27
  sizes := fun _ => [1]
  range := fun args _ => if 15 < arg args 0 then some 0 else none
  owner := fun args s =>
    { result := .done, state := s, data := historyData s.records.history (arg args 0), always := true }

/-- CLEAR HISTORY (09 R148). -/
def clearHistoryCommand : Command where
  number := 28
  sizes := fun _ => []
  permitted := fun src _ => serviceOnly src
  owner := fun _ s => done { s with records := { s.records with history := [] } }

/-- SET RING in OPEN (09 R149): the history is emptied, the ring opens with cause SET RING, the erector sequence goes to
STANDBY (04 R74). -/
def setRing (n : Nat) (s : State) : State :=
  let opened := openRing n .setRing s
  setSeq .standby { opened with records := { opened.records with history := [] } }

/-- SET RING (09 R149). -/
def setRingCommand : Command where
  number := 29
  sizes := fun _ => [2]
  permitted := fun src _ => serviceOnly src
  owner := fun args s =>
    if s.build.state = .ringOpen then done (settle false (setRing (arg args 0) s)) else refuse .busy s

/-- The spoil account of a control second and its judgement (09 R141, R142, 07 R116). -/
def spoilSecond (s : State) : State :=
  if s.cfg.roles.screw then
    let counted := accountSpoil s
    judgeOver (overJudgement counted) counted
  else s

/-- Advance seconds and build seconds (09 R138). -/
def countSeconds (s : State) : State :=
  let r := s.records.current
  { s with
    records :=
      { s.records with
        current :=
          { r with
            advanceSeconds := if s.thrust.mode = .advance then min (r.advanceSeconds + 1) 65535 else r.advanceSeconds
            buildSeconds :=
              if s.build.state ≠ .ringOpen then min (r.buildSeconds + 1) 65535 else r.buildSeconds } } }

/-- The screw unit at a control second, where there is one (06 R96 to R100). -/
def faceSecond (s : State) : State := if s.cfg.roles.screw then bandSecond (screwSecond s) else s

/-- The work of one control second, after the L_ring update (01 R11). -/
def controlWork (s : State) : State := countSeconds (groutSecond (spoilSecond (faceSecond (updateRingAdvance s))))

/-- CONTROL_SECOND: an expiry of the running control timer (00 Timers and events, log 3). -/
def controlSecond (s : State) : State :=
  match s.clock.controlDue with
  | none => s
  | some d =>
    let s' := clockTo d s
    settle true (controlWork { s' with clock := { s'.clock with controlDue := some (d + 1000) } })

/-- Meaning of SET_BALANCE_LIMITS. -/
def execSetBalanceLimits (h : CmdHead) (ops : List Byte) (s : State) : Host.Outcome State Fault Refusal :=
  .next (takeCommand setBalanceLimitsCommand h ops s)

/-- Meaning of READ_RECORD. -/
def execReadRecord (h : CmdHead) (ops : List Byte) (s : State) : Host.Outcome State Fault Refusal :=
  .next (takeCommand readRecordCommand h ops s)

/-- Meaning of READ_HISTORY. -/
def execReadHistory (h : CmdHead) (ops : List Byte) (s : State) : Host.Outcome State Fault Refusal :=
  .next (takeCommand readHistoryCommand h ops s)

/-- Meaning of CLEAR_HISTORY. -/
def execClearHistory (h : CmdHead) (ops : List Byte) (s : State) : Host.Outcome State Fault Refusal :=
  .next (takeCommand clearHistoryCommand h ops s)

/-- Meaning of SET_RING. -/
def execSetRing (h : CmdHead) (ops : List Byte) (s : State) : Host.Outcome State Fault Refusal :=
  .next (takeCommand setRingCommand h ops s)

/-- Meaning of CONTROL_SECOND. -/
def execControlSecond (s : State) : Host.Outcome State Fault Refusal := .next (controlSecond s)

end Sys2Proof.Machine
end

