-- ==== Sys2Proof/Machine/ThrustFamily.lean ====
section
/-! DEFINITION. Machine/ThrustFamily.lean: the commands and inputs of the thrust unit (02), and CLEAR TRIP with its three
units (02 R30, 05 R89, 01 R16). -/

namespace Sys2Proof.Machine

open Sys2Proof

/-- STOPPED joins or leaves the hold-reason set (02 R31). -/
def setStopped (b : Bool) (s : State) : State :=
  { s with thrust := { s.thrust with holds := { s.thrust.holds with stopped := b } } }

/-- START ADVANCE (02 R31). -/
def startAdvanceCommand : Command where
  number := 1
  sizes := fun _ => []
  owner := fun _ s => if s.build.state = .ringOpen then done (settle false (setStopped false s)) else refuse .busy s

/-- STOP ADVANCE (02 R31). -/
def stopAdvanceCommand : Command where
  number := 2
  sizes := fun _ => []
  owner := fun _ s => done (settle false (setStopped true s))

/-- SET ADVANCE LIMITS (02 R37). -/
def setAdvanceLimitsCommand : Command where
  number := 3
  sizes := fun _ => [1, 2]
  owner := fun args s =>
    let v := clamp 0 120 (arg args 0)
    let p := clamp 10 1000 (arg args 1)
    { result := setpointResult .done [(arg args 0, v), (arg args 1, p)]
      state := settle true { s with thrust := { s.thrust with vmax := v, pmax := p } } }

/-- CLEAR TRIP with unit THRUST (02 R30). -/
def clearThrustOwner (s : State) : Answer :=
  if s.thrust.mode = .tripped then
    if s.inputs.force * 10 ≤ s.cfg.tripForce * 9 then
      done (settle false (decideRetract (removeTrip (s.own, .thrust) (setMode .hold s))))
    else refuse .busy s
  else done s

/-- CLEAR TRIP with unit DRIVE (05 R89). -/
def clearDriveOwner (s : State) : Answer :=
  if s.drive.state = .stalled then
    if s.inputs.speed < 5 && s.inputs.torque < 100 then
      done (settle false (removeTrip (s.own, .stall) (driveOff s)))
    else refuse .busy s
  else done s

/-- CLEAR TRIP with unit CAB STOP (01 R16). -/
def clearCabStopOwner (s : State) : Answer := done (settle false (removeTrip (14, .cabStop) s))

/-- The owner of CLEAR TRIP for its unit operand (11 section 11.3, number 4). -/
def clearTripOwner (args : List Nat) (s : State) : Answer :=
  match arg args 0 with
  | 0 => clearThrustOwner s
  | 1 => clearDriveOwner s
  | _ => clearCabStopOwner s

/-- CLEAR TRIP: CAB STOP from the cab console alone, DRIVE needs the role, a unit outside the three is refused (11
R162). -/
def clearTripCommand : Command where
  number := 4
  sizes := fun _ => [1]
  permitted := fun src args => arg args 0 ≠ 2 || src = .cab
  needs := fun args r => arg args 0 ≠ 1 || r.drive
  range := fun args _ => if 2 < arg args 0 then some 0 else none
  owner := clearTripOwner

/-- A stroke reading within the spell adds what lies above the advance mark (02 R22). -/
def countStroke (v : Nat) (s : State) : State :=
  match s.thrust.mode, s.thrust.mark with
  | .advance, some m =>
    if m < v then
      { s with thrust := { s.thrust with advance := min (s.thrust.advance + (v - m)) 65535, mark := some v } }
    else s
  | _, _ => s

/-- STROKE_READING (02 R21, R22, R35). -/
def strokeReading (r : Reading) (s : State) : State :=
  let v := readingOr 32767 32767 r
  let s' := { s with inputs := { s.inputs with stroke := v } }
  if s.running then settle false (countStroke v s') else s'

/-- The thrust trip (02 R29). -/
def tripThrust (s : State) : State := enqueue (.trip .thrust) (addTrip (s.own, .thrust) (setMode .tripped s))

/-- The peak own force of the record takes a higher reading (09 R138). -/
def recordForce (v : Nat) (s : State) : State :=
  { s with
    records :=
      { s.records with current := { s.records.current with peakForce := max s.records.current.peakForce v } } }

/-- What a force reading does to the group: the trip above the trip force, the end of PRESSING at the pressing force (02
R28, R29). -/
def judgeForce (v : Nat) (s : State) : State :=
  if s.cfg.tripForce < v then (if s.thrust.mode = .tripped then s else tripThrust s)
  else if s.thrust.mode = .pressing && s.cfg.pressForce ≤ v then decideRetract (setMode .hold s)
  else s

/-- A force reading taken by a LISTENING or READY station: handed to the record, then judged (02 R21, R28, R29; 09
R138). -/
def takeForce (v : Nat) (s : State) : State := judgeForce v (recordForce v s)

/-- FORCE_READING (02 R21, R28, R29). -/
def forceReading (r : Reading) (s : State) : State :=
  let v := readingOr 20000 20000 r
  let s' := { s with inputs := { s.inputs with force := v } }
  if s.running then settle false (takeForce v s') else s'

/-- RETRACTED_LIMIT_INPUT (02 R27). -/
def retractedLimitInput (active : Bool) (s : State) : State :=
  let s' := { s with inputs := { s.inputs with retracted := active } }
  if s.running then settle false (if active && s.thrust.mode = .retracting then setMode .clear s' else s') else s'

/-- Meaning of START_ADVANCE. -/
def execStartAdvance (h : CmdHead) (ops : List Byte) (s : State) : Host.Outcome State Fault Refusal :=
  .next (takeCommand startAdvanceCommand h ops s)

/-- Meaning of STOP_ADVANCE. -/
def execStopAdvance (h : CmdHead) (ops : List Byte) (s : State) : Host.Outcome State Fault Refusal :=
  .next (takeCommand stopAdvanceCommand h ops s)

/-- Meaning of SET_ADVANCE_LIMITS. -/
def execSetAdvanceLimits (h : CmdHead) (ops : List Byte) (s : State) : Host.Outcome State Fault Refusal :=
  .next (takeCommand setAdvanceLimitsCommand h ops s)

/-- Meaning of CLEAR_TRIP_THRUST: the CLEAR TRIP that its operand byte spells (log 8). -/
def execClearTripThrust (h : CmdHead) (ops : List Byte) (s : State) : Host.Outcome State Fault Refusal :=
  .next (takeCommand clearTripCommand h ops s)

/-- Meaning of CLEAR_TRIP_DRIVE: the CLEAR TRIP that its operand byte spells (log 8). -/
def execClearTripDrive (h : CmdHead) (ops : List Byte) (s : State) : Host.Outcome State Fault Refusal :=
  .next (takeCommand clearTripCommand h ops s)

/-- Meaning of CLEAR_TRIP_CAB_STOP: the CLEAR TRIP that its operand byte spells (log 8). -/
def execClearTripCabStop (h : CmdHead) (ops : List Byte) (s : State) : Host.Outcome State Fault Refusal :=
  .next (takeCommand clearTripCommand h ops s)

/-- Meaning of STROKE_READING. -/
def execStrokeReading (r : Reading) (s : State) : Host.Outcome State Fault Refusal := .next (strokeReading r s)

/-- Meaning of FORCE_READING. -/
def execForceReading (r : Reading) (s : State) : Host.Outcome State Fault Refusal := .next (forceReading r s)

/-- Meaning of RETRACTED_LIMIT_INPUT. -/
def execRetractedLimitInput (active : Bool) (s : State) : Host.Outcome State Fault Refusal :=
  .next (retractedLimitInput active s)

end Sys2Proof.Machine
end

