-- ==== Sys2Proof/Machine/StartFamily.lean ====
section
/-! DEFINITION. Machine/StartFamily.lean: the three resets and the reading of the configuration (12 R165 to R167, R170). -/

namespace Sys2Proof.Machine

open Sys2Proof

/-- Every unit takes its reset values and the station enters STARTING; ring number and history as the kind of reset gives
them (12 R165, R170). The field inputs, the clock of the model and the queue of waiting events are not the station's to
reset (log 2, log 6). -/
def resetStation (cause : OpeningCause) (ring : Nat) (history : List Record) (s : State) : State :=
  { State.reset with
    clock := { State.reset.clock with now := s.clock.now }
    inputs := s.inputs
    records := { State.reset.records with ring := ring, current := Record.fresh Roles.none ring cause, history := history }
    pending := s.pending }

/-- POWER_ON_RESET (12 R170). -/
def powerOnReset (s : State) : State := resetStation .start 0 [] s

/-- PIN_RESET, and the reset that RESTART starts (12 R170). -/
def warmReset (s : State) : State := resetStation .restarted s.records.ring s.records.history s

/-- RESTART (12 R170, 11 R161, R162, R164): taken in LISTENING, READY and CONFIG FAULT from the service terminal, with no
REPLY. -/
def restartCommand (h : CmdHead) (ops : List Byte) (s : State) : State :=
  if s.life = .starting then s
  else if !ops.isEmpty then answer h 30 (refuse (.outOfRange 15) s)
  else if !serviceOnly h.source then answer h 30 (refuse .notPermitted s)
  else warmReset s

/-- The first `k` bytes as numbers; a byte that was not answered is all ones (12 R166). -/
def readMemory : Nat → List (Option Byte) → List Nat
  | 0, _ => []
  | k + 1, [] => 255 :: readMemory k []
  | k + 1, b :: bs => (b.map BitVec.toNat).getD 255 :: readMemory k bs

/-- Byte `i` of the memory as read. -/
def memByte (m : List Nat) (i : Nat) : Nat := m.getD i 255

/-- The two bytes at `i`, most significant first. -/
def memWord (m : List Nat) (i : Nat) : Nat := memByte m i * 256 + memByte m (i + 1)

/-- Check 1 of 12 R166: byte 31 is the low byte of the sum of bytes 0 to 30, inverted. -/
def checkByteGood (m : List Nat) : Bool := memByte m 31 = 255 - (m.take 31).sum % 256

/-- The fields of the configuration memory as read (10 section 10.6). -/
def rawConfig (m : List Nat) : ConfigValues :=
  { n := memByte m 1
    roles :=
      { screw := bitOf (memByte m 2) 7, erector := bitOf (memByte m 2) 6, drive := bitOf (memByte m 2) 5,
        line := bitOf (memByte m 2) 4 }
    af := memWord m 3
    aa := memWord m 5
    w := memWord m 7
    smax := memWord m 9
    rho := memWord m 11
    beltScale := memByte m 13
    addScale := memByte m 15
    vrev := memWord m 16
    nmax := memWord m 18
    vs := memWord m 20
    pumpMax := memByte m 22
    tn := memByte m 23
    k := memByte m 24
    tripForce := memWord m 25
    pressForce := memWord m 27 }

/-- Each field judged against its range, with the exceptions for S_max and the pressing force (12 R167). -/
def judgedConfig (c : ConfigValues) : ConfigValues :=
  let w := clamp 5000 25000 c.w
  let trip := clamp 1000 16000 c.tripForce
  let press := clamp 100 8000 c.pressForce
  { n := clamp 4 8 c.n
    roles := c.roles
    af := clamp 100 9999 c.af
    aa := clamp 10 2000 c.aa
    w := w
    smax := clamp (w + 500) 30000 c.smax
    rho := clamp 1000 3000 c.rho
    beltScale := clamp 1 50 c.beltScale
    addScale := clamp 1 50 c.addScale
    vrev := clamp 10 2000 c.vrev
    nmax := clamp 10 300 c.nmax
    vs := clamp 100 10000 c.vs
    pumpMax := clamp 1 120 c.pumpMax
    tn := clamp 10 100 c.tn
    k := clamp 2 20 c.k
    tripForce := trip
    pressForce := if trip ≤ press then trip - 1 else press }

/-- The station as LISTENING begins: the three timers started and the configured values in every unit (12 R165). -/
def listeningWith (own : Nat) (c : ConfigValues) (clamped : Bool) (s : State) : State :=
  { s with
    life := .listening
    own := own
    cfg := c
    configClamped := clamped
    listen := 0
    probe := false
    clock :=
      { s.clock with
        noticeDue := some (s.clock.now + c.tn)
        controlDue := some (s.clock.now + 1000)
        driveDue := some (s.clock.now + 100) }
    drive := { s.drive with state := if c.roles.drive then .off else .absent }
    grout := { s.grout with line := if c.roles.line then .closed else .absent }
    records := { s.records with current := Record.fresh c.roles s.records.ring s.records.current.cause } }

/-- A reading that succeeds puts the station in LISTENING (12 R165). The force, read anew from its input, is its first
force reading there, and trips the group in this event where it stands above the trip force (02 R21, R29, log 16). -/
def enterListening (own : Nat) (c : ConfigValues) (clamped : Bool) (s : State) : State :=
  settle false (takeForce s.inputs.force (listeningWith own c clamped s))

/-- CONFIGURATION_READ: the end of reading the address pins and the memory in STARTING (12 R166, R167). -/
def configurationRead (pins : BitVec 3) (bytes : List (Option Byte)) (s : State) : State :=
  if s.life = .starting then
    let m := readMemory 32 bytes
    if !checkByteGood m || memByte m 0 ≠ 58 then { s with life := .configFault, own := pins.toNat }
    else
      let raw := rawConfig m
      let c := judgedConfig raw
      let clamped : Bool := c ≠ raw
      if pins.toNat < c.n then enterListening pins.toNat c clamped s
      else { s with life := .configFault, own := pins.toNat, configClamped := clamped }
  else s

/-- Meaning of POWER_ON_RESET. -/
def execPowerOnReset (s : State) : Host.Outcome State Fault Refusal := .next (powerOnReset s)

/-- Meaning of PIN_RESET. -/
def execPinReset (s : State) : Host.Outcome State Fault Refusal := .next (warmReset s)

/-- Meaning of RESTART. -/
def execRestart (h : CmdHead) (ops : List Byte) (s : State) : Host.Outcome State Fault Refusal :=
  .next (restartCommand h ops s)

/-- Meaning of CONFIGURATION_READ. -/
def execConfigurationRead (pins : BitVec 3) (bytes : List (Option Byte)) (s : State) :
    Host.Outcome State Fault Refusal :=
  .next (configurationRead pins bytes s)

end Sys2Proof.Machine
end

