-- ==== Sys2Proof/Machine/Receive.lean ====
section
/-! DEFINITION. Machine/Receive.lean: a notice as read from the line (10 R155, R156): discarded, or handed to its owner;
and a COMMAND by its number (11 section 11.3). -/

namespace Sys2Proof.Machine

open Sys2Proof

/-- The catalogue's command of a number, RESTART (30) apart (11 section 11.3). -/
def catalogue : Nat → Option Command
  | 1 => some startAdvanceCommand
  | 2 => some stopAdvanceCommand
  | 3 => some setAdvanceLimitsCommand
  | 4 => some clearTripCommand
  | 5 => some setMarginCommand
  | 6 => some loadPlanCommand
  | 7 => some beginBuildCommand
  | 8 => some suspendBuildCommand
  | 9 => some resumeBuildCommand
  | 10 => some abandonBuildCommand
  | 11 => some discardPieceCommand
  | 12 => some startCutterheadCommand
  | 13 => some stopCutterheadCommand
  | 14 => some setDriveLimitsCommand
  | 15 => some setFacePressureCommand
  | 16 => some setBalanceLimitsCommand
  | 17 => some trainInCommand
  | 18 => some trainOutCommand
  | 19 => some setPaceLevelsCommand
  | 20 => some setGroutCommand
  | 21 => some armLineCommand
  | 22 => some closeLineCommand
  | 23 => some flushLineCommand
  | 24 => some setGroutTimesCommand
  | 25 => some setGroutMinimumCommand
  | 26 => some readRecordCommand
  | 27 => some readHistoryCommand
  | 28 => some clearHistoryCommand
  | 29 => some setRingCommand
  | _ => none

/-- A COMMAND by its number (11 R161): one that is not in the catalogue fails the form check, OUT OF RANGE with position
15, and nothing else is judged. -/
def runCommand (h : CmdHead) (number : Nat) (ops : List Byte) (s : State) : State :=
  match catalogue number with
  | some c => takeCommand c h ops s
  | none =>
    if number = 30 then restartCommand h ops s
    else if s.life = .starting then s
    else answer h number (refuse (.outOfRange 15) s)

/-- A COMMAND notice read from the line: discarded unless destined to the own address or to all stations (10 R155). -/
def receiveCommand (n : RxNotice) (s : State) : State :=
  if n.dest.toNat = s.own || n.dest.toNat = 8 then
    runCommand
      { source := if n.source.toNat = 14 then .cab else .service, toAll := n.dest.toNat = 8, tag := n.body.getD 1 0 }
      (fieldAt n.body 0 1) (n.body.drop 2) s
  else s

/-- A TRIP notice read from the line; a cause outside its list discards it (10 R155). -/
def receiveTrip (n : RxNotice) (s : State) : State :=
  match decodeAt tripValues (fieldAt n.body 0 1) with
  | some c => tripArrival n.source.toNat c s
  | none => s

/-- A PACE notice read from the line; a pace outside its list discards it (10 R155). -/
def receivePace (n : RxNotice) (s : State) : State :=
  match decodeAt paceValues (fieldAt n.body 0 1) with
  | some p => paceArrival n.source.toNat p s
  | none => s

/-- A STEP notice read from the line; an action outside its list discards it (10 R155). -/
def receiveStep (n : RxNotice) (s : State) : State :=
  match decodeAt stepValues (fieldAt n.body 0 1) with
  | some a => stepArrival n.source.toNat a (fieldAt n.body 1 2) (fieldAt n.body 3 1) s
  | none => s

/-- A STATE notice read from the line (10 R155). -/
def receiveState (n : RxNotice) (s : State) : State :=
  match parseState n.body with
  | some b => stateArrival n.source.toNat b s
  | none => s

/-- Any notice read from the line that is not the station's own offer (10 R155): one that fails a check, a REPLY, and a
COMMAND for another destination change nothing; the others are handed to their owners. -/
def receiveNotice (n : RxNotice) (s : State) : State :=
  if s.life = .starting || !rxPasses n then s
  else
    match n.kind.toNat with
    | 0 => receiveState n s
    | 1 => receiveTrip n s
    | 2 => receivePace n s
    | 3 => receiveStep n s
    | 4 => receiveCommand n s
    | _ => if n.source.toNat = s.own then foreignNotice false s else s

/-- Meaning of NOTICE_DISCARDED: the notice as read is checked; what the checks discard changes nothing (log 9). -/
def execNoticeDiscarded (n : RxNotice) (s : State) : Host.Outcome State Fault Refusal := .next (receiveNotice n s)

/-- Meaning of COMMAND_NOT_IN_CATALOGUE: the command is judged by the number it carries (11 R161, log 9). -/
def execCommandNotInCatalogue (h : CmdHead) (number : Byte) (ops : List Byte) (s : State) :
    Host.Outcome State Fault Refusal :=
  .next (runCommand h number.toNat ops s)

end Sys2Proof.Machine
end

