-- ==== Sys2Proof/Machine/Dispatch.lean ====
section
/-! DEFINITION. Machine/Dispatch.lean: one arm for each event, a direct call of its meaning. -/

namespace Sys2Proof.Machine

open Sys2Proof

/-- The effect of an event on the station, the queue of waiting events apart. -/
def exec (i : Instr) (s : State) : Host.Outcome State Fault Refusal :=
  match i with
  | .startAdvance h ops => Sys2Proof.Machine.execStartAdvance h ops s
  | .stopAdvance h ops => Sys2Proof.Machine.execStopAdvance h ops s
  | .setAdvanceLimits h ops => Sys2Proof.Machine.execSetAdvanceLimits h ops s
  | .clearTripThrust h ops => Sys2Proof.Machine.execClearTripThrust h ops s
  | .clearTripDrive h ops => Sys2Proof.Machine.execClearTripDrive h ops s
  | .clearTripCabStop h ops => Sys2Proof.Machine.execClearTripCabStop h ops s
  | .setMargin h ops => Sys2Proof.Machine.execSetMargin h ops s
  | .loadPlan h ops => Sys2Proof.Machine.execLoadPlan h ops s
  | .beginBuild h ops => Sys2Proof.Machine.execBeginBuild h ops s
  | .suspendBuild h ops => Sys2Proof.Machine.execSuspendBuild h ops s
  | .resumeBuild h ops => Sys2Proof.Machine.execResumeBuild h ops s
  | .abandonBuild h ops => Sys2Proof.Machine.execAbandonBuild h ops s
  | .discardPiece h ops => Sys2Proof.Machine.execDiscardPiece h ops s
  | .startCutterhead h ops => Sys2Proof.Machine.execStartCutterhead h ops s
  | .stopCutterhead h ops => Sys2Proof.Machine.execStopCutterhead h ops s
  | .setDriveLimits h ops => Sys2Proof.Machine.execSetDriveLimits h ops s
  | .setFacePressure h ops => Sys2Proof.Machine.execSetFacePressure h ops s
  | .setBalanceLimits h ops => Sys2Proof.Machine.execSetBalanceLimits h ops s
  | .trainIn h ops => Sys2Proof.Machine.execTrainIn h ops s
  | .trainOut h ops => Sys2Proof.Machine.execTrainOut h ops s
  | .setPaceLevels h ops => Sys2Proof.Machine.execSetPaceLevels h ops s
  | .setGrout h ops => Sys2Proof.Machine.execSetGrout h ops s
  | .armLine h ops => Sys2Proof.Machine.execArmLine h ops s
  | .closeLine h ops => Sys2Proof.Machine.execCloseLine h ops s
  | .flushLine h ops => Sys2Proof.Machine.execFlushLine h ops s
  | .setGroutTimes h ops => Sys2Proof.Machine.execSetGroutTimes h ops s
  | .setGroutMinimum h ops => Sys2Proof.Machine.execSetGroutMinimum h ops s
  | .readRecord h ops => Sys2Proof.Machine.execReadRecord h ops s
  | .readHistory h ops => Sys2Proof.Machine.execReadHistory h ops s
  | .clearHistory h ops => Sys2Proof.Machine.execClearHistory h ops s
  | .setRing h ops => Sys2Proof.Machine.execSetRing h ops s
  | .restart h ops => Sys2Proof.Machine.execRestart h ops s
  | .stateArrival src body => Sys2Proof.Machine.execStateArrival src body s
  | .tripArrival src cause => Sys2Proof.Machine.execTripArrival src cause s
  | .paceArrival src pace => Sys2Proof.Machine.execPaceArrival src pace s
  | .stepArrival src action ring index => Sys2Proof.Machine.execStepArrival src action ring index s
  | .foreignOwnAddressNotice isState => Sys2Proof.Machine.execForeignOwnAddressNotice s isState
  | .noticeDiscarded n => Sys2Proof.Machine.execNoticeDiscarded n s
  | .noticePeriodExpiry => Sys2Proof.Machine.execNoticePeriodExpiry s
  | .controlSecond => Sys2Proof.Machine.execControlSecond s
  | .driveInterval => Sys2Proof.Machine.execDriveInterval s
  | .stallTimerExpiry => Sys2Proof.Machine.execStallTimerExpiry s
  | .beltSilenceExpiry => Sys2Proof.Machine.execBeltSilenceExpiry s
  | .potLifeExpiry => Sys2Proof.Machine.execPotLifeExpiry s
  | .flushTimerExpiry => Sys2Proof.Machine.execFlushTimerExpiry s
  | .retryWaitEnd => Sys2Proof.Machine.execRetryWaitEnd s
  | .silenceCountReachingK => Sys2Proof.Machine.execSilenceCountReachingK s
  | .lineFault by_ => Sys2Proof.Machine.execLineFault by_ s
  | .becomeReady by_ => Sys2Proof.Machine.execBecomeReady by_ s
  | .offerBegin => Sys2Proof.Machine.execOfferBegin s
  | .contentionLost => Sys2Proof.Machine.execContentionLost s
  | .offerFailed => Sys2Proof.Machine.execOfferFailed s
  | .offerCompleted => Sys2Proof.Machine.execOfferCompleted s
  | .strokeReading r => Sys2Proof.Machine.execStrokeReading r s
  | .forceReading r => Sys2Proof.Machine.execForceReading r s
  | .retractedLimitInput active => Sys2Proof.Machine.execRetractedLimitInput active s
  | .measuredSpeedReading r => Sys2Proof.Machine.execMeasuredSpeedReading r s
  | .torqueReading r => Sys2Proof.Machine.execTorqueReading r s
  | .chamberPressureReading r => Sys2Proof.Machine.execChamberPressureReading r s
  | .linePressureReading r => Sys2Proof.Machine.execLinePressureReading r s
  | .beltPulse => Sys2Proof.Machine.execBeltPulse s
  | .additivePulse => Sys2Proof.Machine.execAdditivePulse s
  | .strokePulse => Sys2Proof.Machine.execStrokePulse s
  | .pieceInStrobe piece key => Sys2Proof.Machine.execPieceInStrobe piece key s
  | .seatedInput level => Sys2Proof.Machine.execSeatedInput level s
  | .powerOnReset => Sys2Proof.Machine.execPowerOnReset s
  | .pinReset => Sys2Proof.Machine.execPinReset s
  | .configurationRead pins bytes => Sys2Proof.Machine.execConfigurationRead pins bytes s
  | .commandNotInCatalogue h number ops => Sys2Proof.Machine.execCommandNotInCatalogue h number ops s

end Sys2Proof.Machine
end

