-- ==== Sys2Proof/Machine/Step.lean ====
section
/-! DEFINITION. Machine/Step.lean: one step of the station: the event at the front of the queue, or an idle step. -/

namespace Sys2Proof.Machine

open Sys2Proof

/-- An idle step: one millisecond of the model's clock passes, and nothing else (DESIGN CHOICE, log 2). -/
def idle (s : State) : State := { s with clock := { s.clock with now := s.clock.now + 1 } }

/-- One step: the event at the front of the queue has its effect on the station with the queue's rest (log 1). -/
def step (s : State) : Host.Outcome State Fault Refusal :=
  match s.pending with
  | [] => .next (idle s)
  | c :: rest => exec c { s with pending := rest }

/-- The station with the event that a word spells at the front of its queue; no word spells one (log 21). -/
def State.withFetchWord (s : State) (nbits w : Nat) : State :=
  match decodeTableWord nbits w with
  | some c => { s with pending := c :: s.pending }
  | none => s

end Sys2Proof.Machine
end

