-- ==== Sys2Proof/Safety.lean ====
section
/-! DEFINITION. Safety.lean: the terms that statements about a station are made in: what an event's answer is, what the
evaluation at the end of an event leaves alone, how a command is answered, and the invariants that the manual's rules
name, each written from the rule's own words. -/

namespace Sys2Proof.Machine

open Sys2Proof

/-- The event has its effect, and the station it leaves has the property. -/
def Answers (i : Instr) (s : State) (P : State → Prop) : Prop := ∃ t, exec i s = .next t ∧ P t

/-! ### What the units' evaluation leaves alone -/

/-- What only an event's own rule changes, never the evaluation of the units that ends the event: lifecycle, address,
configuration, clock, inputs, waiting events, peer view, parameters, feeder queue, cars, timers, and the bus interface
but for its queue. -/
structure Base where
  life : Lifecycle
  own : Nat
  cfg : ConfigValues
  configClamped : Bool
  listen : Nat
  probe : Bool
  clock : Clock
  inputs : Inputs
  pending : List Instr
  view : View
  vmax : Nat
  pmax : Nat
  stopped : Bool
  margin : Nat
  feeder : List Piece
  arrival : Nat
  overfull : Bool
  target : Nat
  direction : Direction
  command : Nat
  ramp : Nat
  stallLevel : Nat
  stallTime : Nat
  stallStart : Option Nat
  faceTarget : Option Nat
  band : Nat
  gain : Nat
  beltTime : Nat
  pressureBand : Bool
  cars : List Car
  mass : Nat
  overflow : Nat
  holdLevel : Nat
  slowLevel : Nat
  beltSilent : Bool
  potStart : Option Nat
  flushStart : Option Nat
  potLife : Nat
  flushTime : Nat
  setting : Bool
  gmin : Nat
  bus : Bus
  deriving DecidableEq, Repr

/-- The base of a station; L_ring and the transmit queue stand apart. -/
def baseOf (s : State) : Base :=
  { life := s.life, own := s.own, cfg := s.cfg, configClamped := s.configClamped, listen := s.listen, probe := s.probe,
    clock := s.clock, inputs := s.inputs, pending := s.pending, view := { s.view with lring := 0 },
    vmax := s.thrust.vmax, pmax := s.thrust.pmax, stopped := s.thrust.holds.stopped, margin := s.build.margin,
    feeder := s.erector.queue, arrival := s.erector.arrival, overfull := s.erector.feederOverfull,
    target := s.drive.target, direction := s.drive.direction, command := s.drive.command, ramp := s.drive.ramp,
    stallLevel := s.drive.stallLevel, stallTime := s.drive.stallTime, stallStart := s.drive.stallStart,
    faceTarget := s.screw.target, band := s.screw.band, gain := s.screw.gain, beltTime := s.screw.beltTime,
    pressureBand := s.screw.pressureBand, cars := s.train.cars, mass := s.train.mass, overflow := s.train.overflow,
    holdLevel := s.train.holdLevel, slowLevel := s.train.slowLevel, beltSilent := s.train.reasons.beltSilent,
    potStart := s.grout.potStart, flushStart := s.grout.flushStart, potLife := s.grout.potLife,
    flushTime := s.grout.flushTime, setting := s.grout.setting, gmin := s.grout.gmin,
    bus := { s.bus with queue := [] } }

/-- The figures of the ring, which a ring open changes: a close by the own erector unit's SET can only come from AWAITING
PRESS (04 R74). -/
structure RingPart where
  ring : Nat
  history : List Record
  limits : Limits
  waitingLimits : Option Limits
  cause : OpeningCause
  advanceSeconds : Nat
  buildSeconds : Nat
  peakForce : Nat
  active : GroutSet
  waiting : Option GroutSet
  strokes : Nat
  volume : Nat
  groutSample : Nat
  advance : Nat
  lring : Nat
  accumulator : Nat
  peakTorque : Nat
  screwSample : Nat
  isOver : Bool
  deriving DecidableEq, Repr

/-- The figures of the ring of a station. -/
def ringOf (s : State) : RingPart :=
  { ring := s.records.ring, history := s.records.history, limits := s.records.limits,
    waitingLimits := s.records.waitingLimits, cause := s.records.current.cause,
    advanceSeconds := s.records.current.advanceSeconds, buildSeconds := s.records.current.buildSeconds,
    peakForce := s.records.current.peakForce, active := s.grout.active, waiting := s.grout.waiting,
    strokes := s.grout.strokes, volume := s.grout.volume, groutSample := s.grout.sample, advance := s.thrust.advance,
    lring := s.view.lring, accumulator := s.drive.accumulator, peakTorque := s.drive.peakTorque,
    screwSample := s.screw.sample, isOver := s.train.reasons.isOver }

/-- The build unit but for MARGIN LOW, which follows the group mode (03 R53). -/
def planOf (s : State) : Build := { s.build with marginLow := false }

/-- The frame of an event whose own effect gives `e` and which ends in `t`: the base is that of `e`; so are the figures
of the ring unless the erector waits to send SET; at a station without the ERECTOR role so are the plan and the erector
unit, and the drive, screw and train unit where they have nothing to evaluate in `e`. What remains is what the units
evaluate: group mode and hold reasons, screw state, pace, line state, record figures, outputs, and the notices queued
for them. -/
def FrameOf (e t : State) : Prop :=
  baseOf t = baseOf e
    ∧ (e.erector.seq ≠ .awaitingPress → ringOf t = ringOf e)
    ∧ (e.cfg.roles.erector = false →
        planOf t = planOf e ∧ t.erector = e.erector
          ∧ (driveEval e = e →
              t.drive = e.drive
                ∧ (screwEval e = e → t.screw = e.screw ∧ (trainEval e = e → t.train = e.train))))

/-! ### Commands and their answers -/

/-- Number, head and operand bytes of the rows that are commands of the catalogue (11 section 11.3). -/
def commandOf : Instr → Option (Nat × CmdHead × List Byte)
  | .startAdvance h ops => some (1, h, ops)
  | .stopAdvance h ops => some (2, h, ops)
  | .setAdvanceLimits h ops => some (3, h, ops)
  | .clearTripThrust h ops | .clearTripDrive h ops | .clearTripCabStop h ops => some (4, h, ops)
  | .setMargin h ops => some (5, h, ops)
  | .loadPlan h ops => some (6, h, ops)
  | .beginBuild h ops => some (7, h, ops)
  | .suspendBuild h ops => some (8, h, ops)
  | .resumeBuild h ops => some (9, h, ops)
  | .abandonBuild h ops => some (10, h, ops)
  | .discardPiece h ops => some (11, h, ops)
  | .startCutterhead h ops => some (12, h, ops)
  | .stopCutterhead h ops => some (13, h, ops)
  | .setDriveLimits h ops => some (14, h, ops)
  | .setFacePressure h ops => some (15, h, ops)
  | .setBalanceLimits h ops => some (16, h, ops)
  | .trainIn h ops => some (17, h, ops)
  | .trainOut h ops => some (18, h, ops)
  | .setPaceLevels h ops => some (19, h, ops)
  | .setGrout h ops => some (20, h, ops)
  | .armLine h ops => some (21, h, ops)
  | .closeLine h ops => some (22, h, ops)
  | .flushLine h ops => some (23, h, ops)
  | .setGroutTimes h ops => some (24, h, ops)
  | .setGroutMinimum h ops => some (25, h, ops)
  | .readRecord h ops => some (26, h, ops)
  | .readHistory h ops => some (27, h, ops)
  | .clearHistory h ops => some (28, h, ops)
  | .setRing h ops => some (29, h, ops)
  | .restart h ops => some (30, h, ops)
  | _ => none

/-- The byte length of a command's operands (11 section 11.3): the sizes of the catalogue, and 3 bytes plus 2 for each
entry of its count for LOAD PLAN (11 R161). -/
def catalogueLength (number : Nat) (ops : List Byte) : Nat :=
  match number with
  | 3 | 12 | 17 => 3
  | 4 | 25 | 27 => 1
  | 5 | 7 | 29 => 2
  | 6 => 3 + 2 * (ops.getD 2 0).toNat
  | 14 => 5
  | 15 | 16 | 24 => 4
  | 19 => 7
  | 20 => 8
  | _ => 0

/-- The source may send the command (11 R162, check 1). -/
def mayCommand (number : Nat) (ops : List Byte) (src : CmdSource) : Bool :=
  match number with
  | 28 | 29 | 30 => src = .service
  | 4 => ops ≠ [2] || src = .cab
  | _ => true

/-- The station has what the command needs (11 R162, check 3). -/
def equipped (number : Nat) (ops : List Byte) (r : Roles) : Bool :=
  match number with
  | 12 | 13 | 14 => r.drive
  | 4 => ops ≠ [1] || r.drive
  | 15 | 16 | 17 | 18 | 19 => r.screw
  | 11 => r.erector
  | 20 | 21 | 22 | 23 | 24 => r.line
  | _ => true

/-- The station with nothing changed but a REPLY queued: how a refused command ends (11 R162, R164). -/
def replyOnly (h : CmdHead) (number : Nat) (r : Result) (s : State) : State :=
  enqueue (.reply h.source number h.tag r []) s

/-- A command that changes nothing and is answered DONE: no REPLY to a broadcast (11 R164). -/
def doneOnly (h : CmdHead) (number : Nat) (s : State) : State := if h.toAll then s else replyOnly h number .done s

/-- A notice is a REPLY. -/
def isReply : TxNotice → Bool
  | .reply _ _ _ _ _ => true
  | _ => false

/-- A REPLY with this result and data stands in the queue, unless the queue is full (11 R164, 10 R159). -/
def Sent (h : CmdHead) (number : Nat) (r : Result) (data : List Byte) (t : State) : Prop :=
  (∃ x ∈ t.bus.queue, x.notice = .reply h.source number h.tag r data) ∨ 6 ≤ t.bus.queue.length

/-- A command is answered as 11 R164 gives it: no REPLY to a broadcast answered DONE, a REPLY otherwise. -/
def Answered (h : CmdHead) (number : Nat) (r : Result) (s t : State) : Prop :=
  if h.toAll && r = .done then ∀ x ∈ t.bus.queue, isReply x.notice → x ∈ s.bus.queue else Sent h number r [] t

/-- A notice that the units queue as an event ends: PACE or STEP (10 R157). -/
def isUnitNotice : TxNotice → Bool
  | .pace _ | .step _ _ _ => true
  | _ => false

/-- The transmit queue holds `q` and what the units queued behind it as the event ended: every notice of class 0 and 1 in
its order, the STATE too unless the queue is full, and no notice but theirs besides (10 R158, R159). -/
def QueueKept (q : List QueueItem) (t : State) : Prop :=
  (q.filter (fun x => noticeClass x.notice ≠ 2)).Sublist t.bus.queue
    ∧ (q.Sublist t.bus.queue ∨ 6 ≤ t.bus.queue.length)
    ∧ ∀ x ∈ t.bus.queue, x ∈ q ∨ (x.offering = false ∧ isUnitNotice x.notice = true)

/-- The queue `x :: rest` after the offer of `x` has not completed: `x` waits, ahead of `rest` but for the notices of a lower
class that joined during the offer (10 R158; log 33). -/
def waitingAgain (x : QueueItem) (rest : List QueueItem) : List QueueItem :=
  rest.takeWhile (fun y => noticeClass y.notice < noticeClass x.notice)
    ++ { x with offering := false } :: rest.dropWhile (fun y => noticeClass y.notice < noticeClass x.notice)

/-- CLAMPED naming the first operand whose value was changed, or else the owner's result (11 R163). -/
def clampedOr (owner : Result) : List (Nat × Nat) → Result
  | [] => owner
  | (given, used) :: rest =>
    if given ≠ used then .clamped 0
    else match clampedOr owner rest with | .clamped p => .clamped (p + 1) | r => r

/-- The advance speed limit on the figures of a station (02 R36). -/
def speedLimit (s : State) : Nat :=
  let limit := min s.thrust.vmax (s.thrust.pmax * penetrationSpeed s / 1000)
  if spoilPace s = some .slow then limit / 2 else limit

/-- A FRESH peer of lower address carries the role (01 R19, R20). -/
def lowerClaims (role : Roles → Bool) (t : State) : Bool :=
  (freshPeers t).any (fun p => decide (p.1 < t.own) && role p.2.roles)

/-! ### The figures of a closing ring -/

/-- The FRESH peers that stand on the ring that `s` closes, in the view after the event (09 R145). -/
def closingPeers (s t : State) : List (Nat × StateBody) :=
  (freshPeers t).filter (fun p => p.2.ring = s.records.ring)

/-- L_ring at its last update (09 R144 step 1, 01 R11). -/
def closingAdvance (s t : State) : Nat :=
  max s.view.lring ((meanOf (s.thrust.advance :: (closingPeers s t).map (fun p => p.2.advance))).getD 0)

/-- The spoil part of the closed record: computed once more and judged against the active limits (09 R144 step 2, R141,
R142). -/
def closedSpoil (s t : State) (p : SpoilPart) : SpoilPart :=
  let vex := s.cfg.af * closingAdvance s t
  let vrm := if p.belt ≤ p.additive then 0 else roundNat ((p.belt - p.additive) * 1000000) s.cfg.rho
  let ratio := if vex < s.cfg.af * 1000 then none else some (min (vrm * 1000 / vex) 4095)
  { p with
    vex := vex
    vrm := vrm
    ratio := ratio
    negativeNet := p.negativeNet || decide (p.belt ≤ p.additive)
    isOver := p.isOver || decide (s.records.limits.upper < ratio.getD 0)
    isUnder := p.isUnder || decide (ratio.getD s.records.limits.lower < s.records.limits.lower) }

/-- The grout part of the closed record: the handed-over figures, the machine grout volume, the ratio and its judgement
(09 R144 step 3, R145, R139). -/
def closedGrout (s t : State) (g : GroutPart) : GroutPart :=
  let total := s.grout.volume + ((closingPeers s t).map (fun p => p.2.volume)).sum
  let ratio := if closingAdvance s t = 0 then none else some (total * 1000 / (s.cfg.aa * closingAdvance s t))
  { g with
    strokes := s.grout.strokes
    volume := s.grout.volume
    machine := some total
    lines := some (1 + (closingPeers s t).length)
    ratio := ratio
    target := some s.grout.active.ratio
    underfill := g.underfill || decide (ratio.getD 1000 < 1000)
    excess := g.excess || decide (s.grout.active.ratio + 500 < ratio.getD 0)
    atLimit := g.atLimit || decide (99999 ≤ s.grout.strokes) || decide (9999999 ≤ s.grout.volume) }

/-- The record that a close stores as the newest, with the final figures of its base, spoil and grout parts (09 R144). -/
def StoredAtClose (s t : State) : Prop :=
  t.records.history.length = min (s.records.history.length + 1) (max s.records.history.length 16)
    ∧ (t.records.history.getLast?).map Record.ring = some s.records.current.ring
    ∧ (t.records.history.getLast?).map Record.ownAdvance = some s.thrust.advance
    ∧ (t.records.history.getLast?).map Record.machineAdvance = some (closingAdvance s t)
    ∧ (t.records.history.getLast?).map Record.spoil = some (s.records.current.spoil.map (closedSpoil s t))
    ∧ (t.records.history.getLast?).map Record.grout = some (s.records.current.grout.map (closedGrout s t))

/-! ### Plans -/

/-- The sectors of a cover byte, bit s for sector s (11 section 11.3). -/
def sectorsOf (cover : Byte) : List Nat := [0, 1, 2, 3, 4, 5, 6, 7].filter (fun i => cover.getLsbD i)

/-- The entry of a piece byte and a cover byte: bit 7 placeholder, bit 6 KEY, bits 2 to 0 type (11 section 11.3, 03
R42). -/
def readEntry (b : Byte × Byte) : PlanEntry :=
  if b.1.getLsbD 7 then { piece := 0, key := false, cover := [], state := .empty }
  else { piece := b.1.toNat % 8, key := b.1.getLsbD 6, cover := sectorsOf b.2, state := .pending }

/-- An entry of LOAD PLAN that 03 R41 refuses, at a station with `n` sectors. -/
def badEntry (n : Nat) (last : Bool) (b : Byte × Byte) : Bool :=
  if b.1.getLsbD 7 then last
  else (sectorsOf b.2).isEmpty || 3 < (sectorsOf b.2).length || (sectorsOf b.2).any (fun a => n ≤ a)
    || b.1.getLsbD 6 != last

/-- The operands of LOAD PLAN for a ring and its entries. -/
def planOperands (ring : Nat) (es : List (Byte × Byte)) : List Byte :=
  beBytes 2 ring ++ [byteOf es.length] ++ es.flatMap (fun b => [b.1, b.2])

/-- Entry `j` of a plan of `es` is one that 03 R41 refuses. -/
def badAt (n : Nat) (es : List (Byte × Byte)) (j : Nat) : Bool :=
  match es[j]? with
  | some b => badEntry n (j + 1 = es.length) b
  | none => false

/-! ### Invariants -/

/-- The three periodic timers run while the station is LISTENING or READY and stand idle otherwise (12 R165). -/
def TimersFollowLife (s : State) : Prop :=
  s.clock.noticeDue.isSome = s.running ∧ s.clock.controlDue.isSome = s.running ∧ s.clock.driveDue.isSome = s.running

/-- Every step keeps the property, from every state whose timers follow the lifecycle. -/
def KeptByStep (P : State → Prop) : Prop := ∀ s t, TimersFollowLife s → P s → step s = .next t → P t

/-- The transmit queue holds at most 6 notices, at most one of them a STATE; those that wait stand in order of class; one is
on offer exactly while an offer is in progress, and it is the first (10 R158). -/
def QueueInOrder (s : State) : Prop :=
  s.bus.queue.length ≤ 6 ∧ (s.bus.queue.filter (fun x => x.notice = .state)).length ≤ 1
    ∧ (s.bus.queue.filter (fun x => !x.offering)).Pairwise (fun x y => noticeClass x.notice ≤ noticeClass y.notice)
    ∧ s.bus.queue.any QueueItem.offering = s.bus.offer.isSome
    ∧ s.bus.queue.tail.all (fun x => !x.offering) = true

/-- The group is RETRACTING or CLEAR only while the build state is BUILDING or SUSPENDED and the entry at the progress
index covers the own sector (03 R52); while it is, that entry is CLAIMED, or it is PENDING and the build goes on (03 R46,
R59). A build goes on only at a READY station. -/
def WithdrawnOnlyCovered (s : State) : Prop :=
  (s.build.state ≠ .ringOpen → s.life = .ready)
    ∧ (withdrawn s = true →
        s.build.state ≠ .ringOpen ∧ ownCovered s = true
          ∧ (currentEntryState s = some .claimed
              ∨ (currentEntryState s = some .pending ∧ s.build.state = .building)))

/-- The drive is STARTING or RUNNING only while the build state is OPEN, no FRESH peer is building, a spoil station is in
view, the trip memory is empty and the station is not BLIND (05 R80). -/
def DriveFit (s : State) : Prop :=
  s.drive.state = .starting ∨ s.drive.state = .running →
    s.running = true ∧ s.build.state = .ringOpen ∧ peerBuilding s = false ∧ (spoilStation s).isSome = true
      ∧ s.view.trips = [] ∧ s.view.blind = false

/-- The screw command lies between 0 and n_max, and is 0 whenever the gate is closed; the gate is open in RUNNING alone
(06 R95). -/
def ScrewGated (s : State) : Prop :=
  s.screw.command ≤ s.cfg.nmax
    ∧ (0 < s.screw.command → s.screw.state = .running ∧ s.life = .ready)

/-- The screw state is the one of the first row of 06 R94 whose condition holds. -/
def ScrewChosen (s : State) : Prop :=
  s.running = true → s.cfg.roles.screw = true →
    s.screw.state =
      if s.life ≠ .ready ∨ s.view.screwConflict = true then .stopped
      else if s.build.state ≠ .ringOpen ∨ peerBuilding s = true then .buildHold
      else if s.screw.target.isSome = true ∧ driveInView s = true ∧ s.view.trips = [] ∧ s.view.blind = false
          ∧ (controlPressure s).isSome = true
      then .running
      else .stopped

/-- The support valve is open only in BUILD HOLD with P_c below P_t, and open there with P_c below P_t less the band (06
R99, R95). -/
def SupportFollows (s : State) : Prop :=
  s.running = true → s.cfg.roles.screw = true →
    (s.screw.support = true →
        s.screw.state = .buildHold
          ∧ ∃ pt, s.screw.target = some pt ∧ ∃ pc, controlPressure s = some pc ∧ pc < pt)
      ∧ (∀ pt, s.screw.target = some pt → ∀ pc, controlPressure s = some pc →
          s.screw.state = .buildHold → pc + s.screw.band < pt → s.screw.support = true)

/-- The grade of TRAIN on a free capacity (07 R115). -/
def gradeOn (f hold slow : Nat) : TrainGrade := if f ≤ hold then .hold else if f ≤ slow then .slow else .absent

/-- The pace reasons stand as their causes do, and the pace state is the most restrictive grade present, HOLD in SCREW
conflict (07 R115, R117; 06 R101, R104). -/
def PaceFollows (s : State) : Prop :=
  s.running = true → s.cfg.roles.screw = true →
    s.train.reasons.train = gradeOn (freeCapacity s.train.cars) s.train.holdLevel s.train.slowLevel
      ∧ s.train.reasons.pressureBlind = (controlPressure s).isNone
      ∧ s.train.reasons.noTarget = s.screw.target.isNone
      ∧ (s.train.pace = .hold ↔
          (s.view.screwConflict = true ∨ s.train.reasons.train = .hold ∨ s.train.reasons.pressureBlind = true
            ∨ s.train.reasons.beltSilent = true ∨ s.train.reasons.noTarget = true))
      ∧ (s.train.pace = .slow → s.train.reasons.train = .slow ∨ s.train.reasons.isOver = true)
      ∧ (s.train.pace = .free → s.train.reasons.train = .absent ∧ s.train.reasons.isOver = false)

/-- The hold-reason set holds each reason of 02 section 2.4 exactly while its cause holds, STOPPED alone in STARTING and
CONFIG FAULT (02 R31 to R35); the group is in ADVANCE only with the set empty, and never in HOLD with it empty (02
R25). -/
def HoldsFollow (s : State) : Prop :=
  if s.running = true then
    s.thrust.holds.build = decide (s.build.state ≠ .ringOpen)
      ∧ s.thrust.holds.peerBuild = peerBuilding s
      ∧ s.thrust.holds.pace = decide (spoilPace s = some .hold)
      ∧ s.thrust.holds.grout = decide (groutReady s < s.grout.gmin)
      ∧ s.thrust.holds.cutterhead =
          (if s.drive.state = .absent then !(freshPeers s).any (fun p => p.2.drive = .running)
           else decide (s.drive.state ≠ .running))
      ∧ s.thrust.holds.trip = !s.view.trips.isEmpty
      ∧ s.thrust.holds.blind = s.view.blind
      ∧ s.thrust.holds.spoilStale = (spoilStation s).isNone
      ∧ s.thrust.holds.strokeEnd = decide (s.cfg.smax ≤ s.inputs.stroke)
      ∧ (s.thrust.mode = .advance → holdsEmpty s.thrust.holds = true)
      ∧ (s.thrust.mode = .hold → holdsEmpty s.thrust.holds = false)
  else s.thrust.holds = HoldSet.reset ∧ s.thrust.mode = .hold

/-- The line is INJECTING only while the own group is in ADVANCE (08 R123). -/
def InjectsInAdvance (s : State) : Prop := s.grout.line = .injecting → s.thrust.mode = .advance

/-- The window is open on the own advance `a`: the table of 08 R124, and the tail part. -/
def inWindow (g : GroutSet) (tail : Option Nat) (a : Nat) : Prop :=
  (g.opens < g.closes ∧ g.opens ≤ a ∧ a < g.closes) ∨ (g.opens = 0 ∧ g.closes = 0)
    ∨ (g.closes < g.opens ∧ g.opens ≤ a) ∨ a < tail.getD 0

/-- An INJECTING line stands where the injection condition holds, an ARMED one where it does not (08 R123), and a carried
tail that is present is not yet reached (08 R124). -/
def InjectionFollows (s : State) : Prop :=
  s.running = true →
    (s.grout.line = .injecting →
        s.thrust.mode = .advance ∧ inWindow s.grout.active s.grout.tail s.thrust.advance)
      ∧ (s.grout.line = .armed →
          ¬(s.thrust.mode = .advance ∧ inWindow s.grout.active s.grout.tail s.thrust.advance))
      ∧ ∀ p, s.grout.tail = some p → s.thrust.advance < p

/-- The outputs of the thrust group in a mode: extend valve, retract valve open, lock engaged (02 R24, R27). -/
def thrustOutputs (m : GroupMode) (vlim : Nat) (limit : Bool) : ExtendValve × Bool × Bool :=
  match m with
  | .hold | .tripped => (.closed, false, true)
  | .advance => (.reference vlim, false, false)
  | .retracting => (.closed, true, false)
  | .clear => (.closed, !limit, limit)
  | .pressing => (.press, false, false)

/-- The outputs stand as the tables of 02 R24, 05 R78, 06 R95, 08 R121, 04 R77 and 12 section 12.5 give them for the
units' states, and as 12 R165 gives them in STARTING and CONFIG FAULT. -/
def OutputsFollow (s : State) : Prop :=
  if s.running = true then
    (s.out.extend, s.out.retract, s.out.lock) = thrustOutputs s.thrust.mode s.thrust.vlim s.inputs.retracted
      ∧ s.out.driveEnable =
          decide (s.drive.state = .starting ∨ s.drive.state = .running
            ∨ (s.drive.state = .stopping ∧ 0 < s.drive.command))
      ∧ s.out.driveRef =
          (if s.drive.state = .starting ∨ s.drive.state = .running ∨ s.drive.state = .stopping then s.drive.command
           else 0)
      ∧ s.out.direction = s.drive.direction
      ∧ s.out.screwEnable = decide (s.screw.state = .running)
      ∧ s.out.gate = decide (s.screw.state = .running)
      ∧ s.out.screwRef = s.screw.command ∧ s.out.support = s.screw.support
      ∧ s.out.groutValve = decide (s.grout.line = .injecting)
      ∧ s.out.flushValve = decide (s.grout.line = .flushing)
      ∧ s.out.pump = decide (s.grout.line = .injecting ∧ 0 < s.grout.rate)
      ∧ s.out.pumpRate = (if s.grout.line = .injecting then s.grout.rate else 0)
      ∧ s.out.erectorEnable = decide (s.erector.seq = .placing)
      ∧ s.out.status = decide (s.life = .ready)
  else s.out = Outputs.starting

/-- The cars of the queue, in fill order: FULL cars, then at most one FILLING car with every car after it WAITING (07
R108); a FILLING car is below its capacity and a WAITING one is empty. -/
def carsInOrder : List Car → Prop
  | [] => True
  | c :: cs =>
    match c.state with
    | .full => carsInOrder cs
    | .filling => c.filled < c.capacity ∧ ∀ d ∈ cs, d.state = .waiting ∧ d.filled = 0 ∧ 0 < d.capacity
    | .waiting => False

/-- At most 8 cars in fill order; the train mass, at most 9,999,999 kg, is the sum of the filled masses and the overflow
mass (07 R108, R110). -/
def TrainBalanced (s : State) : Prop :=
  s.train.cars.length ≤ 8 ∧ carsInOrder s.train.cars ∧ s.train.mass ≤ 9999999
    ∧ s.train.mass = (s.train.cars.map Car.filled).sum + s.train.overflow

/-- The ring history holds at most 16 records, in strictly increasing ring number, each below the ring number of the
current record, which is the station's (09 R146, R137). -/
def HistoryInOrder (s : State) : Prop :=
  s.records.history.length ≤ 16 ∧ s.records.current.ring = s.records.ring
    ∧ (s.records.history.map Record.ring ++ [s.records.ring]).Pairwise (· < ·)

/-- A plan is held at a READY station alone and has at most 8 entries; every entry below the progress index is SET and no
other; the KEY is the last entry and no other; the index is below the count (0 without a plan), and 0 in OPEN (03 R39,
R40, R41). -/
def PlanInOrder (s : State) : Prop :=
  s.build.entries.length ≤ 8
    ∧ (s.build.entries ≠ [] → s.life = .ready)
    ∧ (∀ j e, s.build.entries[j]? = some e →
        (e.state = .set ↔ j < s.build.index) ∧ (e.key = true ↔ j + 1 = s.build.entries.length))
    ∧ (s.build.index < s.build.entries.length ∨ (s.build.index = 0 ∧ s.build.entries = []))
    ∧ (s.build.state = .ringOpen → s.build.index = 0)

/-- Every held entry is of an address below N other than the own, FRESH exactly while its age is at most k, with an age
of at most 255; nothing is held in STARTING and CONFIG FAULT (01 R2, R4). -/
def PeersInOrder (s : State) : Prop :=
  s.view.peers.length = 8
    ∧ ∀ (a : Nat) (e : PeerEntry) (h : Heard), s.view.peers[a]? = some e → e.held = some h →
        s.running = true ∧ a < s.cfg.n ∧ a ≠ s.own ∧ h.age ≤ 255 ∧ (h.fresh = true ↔ h.age ≤ s.cfg.k)

/-- The own pairs of the trip memory are there exactly while the group is TRIPPED and the drive STALLED; a station that
is neither LISTENING nor READY holds no pair (01 R15, R16). -/
def OwnTripsKnown (s : State) : Prop :=
  ((s.own, TripCause.thrust) ∈ s.view.trips ↔ s.thrust.mode = .tripped)
    ∧ ((s.own, TripCause.stall) ∈ s.view.trips ↔ s.drive.state = .stalled)
    ∧ (s.running = false → s.view.trips = [])

/-- The working entry of a sequence that works on it: no conflict, and the build is BUILDING on its ring at its index (04
R69, R73, 01 R20). -/
def atWork (s : State) (w : Working) : Prop :=
  s.erector.working = some w ∧ s.view.erectorConflict = false ∧ s.build.state = .building ∧ s.records.ring = w.ring
    ∧ s.build.index = w.index

/-- The conditions under which a sequence in STANDBY goes to AWAITING CLEAR (04 R68). -/
abbrev entryToWork (s : State) : Prop :=
  s.life = .ready ∧ s.view.erectorConflict = false ∧ s.build.state = .building ∧ currentEntryState s = some .pending

/-- The erector sequence stands where its rules hold it: STANDBY without an entry to work (04 R68), or with the progress
index past the entry it worked last on this ring, as an event that ends the work by moving the index leaves it (04 R73,
log 26; ErectorSequenceSettled says when it goes on); AWAITING CLEAR at its working entry, with FEEDER EMPTY
and an empty queue once every covered group is CLEAR (04 R69, R70); PLACING with every covered group CLEAR and the head
piece matching the entry in type and KEY (04 R70, R72, R73); AWAITING PRESS while a covered group is not in HOLD (04 R74). -/
def SequenceSettled (s : State) : Prop :=
  s.running = true → s.cfg.roles.erector = true →
    match s.erector.seq with
    | .standby =>
      ¬entryToWork s
        ∨ ∃ w, s.erector.working = some w ∧ w.ring = s.records.ring ∧ w.index < s.build.index
    | .awaitingClear =>
      ∃ w, atWork s w
        ∧ (w.cover.all (seenIn s .clear) = true → s.erector.queue = [] ∧ s.erector.feederEmpty = true)
    | .placing =>
      ∃ w, atWork s w ∧ w.cover.all (seenIn s .clear) = true
        ∧ s.erector.queue.head?.map (fun p => (p.piece, p.key)) = some (w.piece, w.key)
    | .awaitingPress =>
      ∃ w, s.erector.working = some w ∧ s.view.erectorConflict = false ∧ w.cover.all (seenIn s .hold) = false

/-- A STEP of the erector unit stands in the transmit queue, unless that is full (04 R75, 10 R159). -/
def StepSent (a : StepAction) (w : Working) (t : State) : Prop :=
  (∃ x ∈ t.bus.queue, x.notice = .step a w.ring w.index) ∨ 6 ≤ t.bus.queue.length

/-- The balance ratio of the current record, where present, is at most 4,095, and it is present only when the record's
excavated volume is at least A_f × 1,000 mL (09 R141). -/
def RatioBounded (s : State) : Prop :=
  ∀ p r, s.records.current.spoil = some p → p.ratio = some r → r ≤ 4095 ∧ s.cfg.af * 1000 ≤ p.vex

/-- BLIND and the silence count leave their reset values in READY alone, and the count is at most k (01 R17). -/
def BlindInReady (s : State) : Prop :=
  (s.life ≠ .ready → s.view.blind = false ∧ s.view.silence = 0) ∧ s.view.silence ≤ s.cfg.k

end Sys2Proof.Machine
end

