-- ==== Sys2Proof/WellFormed.lean ====
section
/-! DEFINITION. WellFormed.lean: the ranges that the manual gives the values an event carries. exec does not ask for them
(each value has the effect its rules give it); statements and senders do. -/

namespace Sys2Proof

/-- The operands of a COMMAND: its body is 2 to 32 bytes, number and tag included (10 section 10.6). -/
def operandsFit (ops : List Byte) : Bool := ops.length ≤ 30

/-- A reading lies within its quantity's range; one outside the measuring range is none. -/
def readingFits (greatest : Nat) : Reading → Bool
  | none => true
  | some v => v ≤ greatest

/-- The body of a STATE notice fits its layout (01 R3, 10 section 10.6). -/
def StateBody.fits (b : StateBody) : Bool :=
  b.ring < 65536 && b.index ≤ 8 && b.force < 65536 && b.advance < 65536 && b.speed < 65536 && b.torque < 65536
    && b.volume < 16777216 && (match b.chamber with | some c => c < 65535 | none => true) && b.page < 8
    && b.detail.length = 9

/-- An event whose values lie in the ranges the manual gives them. The three CLEAR TRIP rows are told apart by their unit
operand; COMMAND_NOT_IN_CATALOGUE carries a number outside 1 to 30. -/
def Instr.wellFormed : Instr → Bool
  | .startAdvance _ ops => operandsFit ops
  | .stopAdvance _ ops => operandsFit ops
  | .setAdvanceLimits _ ops => operandsFit ops
  | .clearTripThrust _ ops => operandsFit ops && ops ≠ [1] && ops ≠ [2]
  | .clearTripDrive _ ops => ops = [1]
  | .clearTripCabStop _ ops => ops = [2]
  | .setMargin _ ops => operandsFit ops
  | .loadPlan _ ops => operandsFit ops
  | .beginBuild _ ops => operandsFit ops
  | .suspendBuild _ ops => operandsFit ops
  | .resumeBuild _ ops => operandsFit ops
  | .abandonBuild _ ops => operandsFit ops
  | .discardPiece _ ops => operandsFit ops
  | .startCutterhead _ ops => operandsFit ops
  | .stopCutterhead _ ops => operandsFit ops
  | .setDriveLimits _ ops => operandsFit ops
  | .setFacePressure _ ops => operandsFit ops
  | .setBalanceLimits _ ops => operandsFit ops
  | .trainIn _ ops => operandsFit ops
  | .trainOut _ ops => operandsFit ops
  | .setPaceLevels _ ops => operandsFit ops
  | .setGrout _ ops => operandsFit ops
  | .armLine _ ops => operandsFit ops
  | .closeLine _ ops => operandsFit ops
  | .flushLine _ ops => operandsFit ops
  | .setGroutTimes _ ops => operandsFit ops
  | .setGroutMinimum _ ops => operandsFit ops
  | .readRecord _ ops => operandsFit ops
  | .readHistory _ ops => operandsFit ops
  | .clearHistory _ ops => operandsFit ops
  | .setRing _ ops => operandsFit ops
  | .restart _ ops => operandsFit ops
  | .stateArrival src body => src < 8 && body.fits
  | .tripArrival src _ => src < 8 || src = 14
  | .paceArrival src _ => src < 8
  | .stepArrival src _ ring index => src < 8 && ring < 65536 && index < 256
  | .foreignOwnAddressNotice _ => true
  | .noticeDiscarded n => n.body.length ≤ 63
  | .noticePeriodExpiry => true
  | .controlSecond => true
  | .driveInterval => true
  | .stallTimerExpiry => true
  | .beltSilenceExpiry => true
  | .potLifeExpiry => true
  | .flushTimerExpiry => true
  | .retryWaitEnd => true
  | .silenceCountReachingK => true
  | .lineFault _ => true
  | .becomeReady _ => true
  | .offerBegin => true
  | .contentionLost => true
  | .offerFailed => true
  | .offerCompleted => true
  | .strokeReading r => readingFits 32767 r
  | .forceReading r => readingFits 20000 r
  | .retractedLimitInput _ => true
  | .measuredSpeedReading r => readingFits 600 r
  | .torqueReading r => readingFits 2000 r
  | .chamberPressureReading r => readingFits 1000 r
  | .linePressureReading r => readingFits 1000 r
  | .beltPulse => true
  | .additivePulse => true
  | .strokePulse => true
  | .pieceInStrobe _ _ => true
  | .seatedInput _ => true
  | .powerOnReset => true
  | .pinReset => true
  | .configurationRead _ bytes => bytes.length = 32
  | .commandNotInCatalogue _ number ops => operandsFit ops && (number.toNat = 0 || 30 < number.toNat)

end Sys2Proof
end

