-- ==== Sys2Proof/Certificates/Slice0/Obligations.lean ====
section
/-! DEFINITION. Certificates/Slice0/Obligations.lean: what is claimed of the station, statement by statement. Each docstring
names the rules a statement rests on; "(model)" marks a clause that rests on a choice of the model and its log entry. -/

section

open Sys2Proof Sys2Proof.Machine

/-! ### The machine -/

/-- A step takes the event at the front of the queue and runs it on the station with the queue's rest; with nothing
waiting, one millisecond of the model's clock passes and nothing else changes (model, log 2). -/
def Obligations.StepTakesFrontEvent : Prop :=
  (∀ (c : Instr) (rest : List Instr) (s : State),
    step { s with pending := c :: rest } = exec c { s with pending := rest })
  ∧ (∀ (s : State), s.pending = [] → step s = .next { s with clock := { s.clock with now := s.clock.now + 1 } })

/-- Every event has an effect, and none touches the events that wait. 12 R165, R166, R168, R170: the lifecycle changes
only into STARTING, with bus interface, peer view and outputs reset; out of STARTING into CONFIG FAULT or LISTENING; and
from LISTENING to READY with the listen count at k+1 and the probe marker set. Own address and configured values keep
their values from the reading of the memory to the next reset. -/
def Obligations.LifecycleAndConfigurationFixed : Prop :=
  (∀ (c : Instr) (s : State), Answers c s (fun t => t.pending = s.pending))
  ∧ (∀ (c : Instr) (s t : State), exec c s = .next t →
    (t.life = .starting ∧ s.life ≠ .starting → t.bus = Bus.reset ∧ t.view = View.reset ∧ t.out = Outputs.starting)
      ∧ (s.life = .starting → t.life = .starting ∨ t.life = .configFault ∨ t.life = .listening)
      ∧ (s.life = .configFault → t.life = .configFault ∨ t.life = .starting)
      ∧ (s.life = .listening →
          t.life = .listening ∨ t.life = .starting
            ∨ (t.life = .ready ∧ t.listen = t.cfg.k + 1 ∧ t.probe = true))
      ∧ (s.life = .ready → t.life = .ready ∨ t.life = .starting)
      ∧ (s.life ≠ .starting → t.life ≠ .starting →
          t.own = s.own ∧ t.cfg = s.cfg ∧ t.configClamped = s.configClamped))

/-! ### Taking a command -/

/-- 11 R161: in STARTING a command is dropped; otherwise one whose operands do not have exactly the catalogue's length,
or whose number the catalogue does not hold, is answered OUT OF RANGE with position 15, and nothing else changes. -/
def Obligations.CommandFormChecked : Prop :=
  (∀ (i : Instr) (n : Nat) (h : CmdHead) (ops : List Byte) (s : State),
    commandOf i = some (n, h, ops) → s.life = .starting → exec i s = .next s)
  ∧ (∀ (i : Instr) (n : Nat) (h : CmdHead) (ops : List Byte) (s : State),
    commandOf i = some (n, h, ops) → s.life ≠ .starting → ops.length ≠ catalogueLength n ops →
      exec i s = .next (replyOnly h n (.outOfRange 15) s))
  ∧ (∀ (h : CmdHead) (number : Byte) (ops : List Byte) (s : State),
    number.toNat = 0 ∨ 30 < number.toNat → s.life ≠ .starting →
      exec (.commandNotInCatalogue h number ops) s = .next (replyOnly h number.toNat (.outOfRange 15) s))

/-- 11 R162: a command of good form that fails check 1, 2 or 3 is answered NOT PERMITTED, NOT READY or NOT APPLICABLE,
the first failing check deciding, and nothing else changes. -/
def Obligations.CommandChecksInOrder : Prop :=
  (∀ (i : Instr) (n : Nat) (h : CmdHead) (ops : List Byte) (s : State),
    commandOf i = some (n, h, ops) → s.life ≠ .starting → ops.length = catalogueLength n ops →
      mayCommand n ops h.source = false → exec i s = .next (replyOnly h n .notPermitted s))
  ∧ (∀ (i : Instr) (n : Nat) (h : CmdHead) (ops : List Byte) (s : State),
    commandOf i = some (n, h, ops) → s.life = .listening ∨ s.life = .configFault →
      ops.length = catalogueLength n ops → mayCommand n ops h.source = true → n ≠ 30 →
      exec i s = .next (replyOnly h n .notReady s))
  ∧ (∀ (i : Instr) (n : Nat) (h : CmdHead) (ops : List Byte) (s : State),
    commandOf i = some (n, h, ops) → s.life = .ready → ops.length = catalogueLength n ops →
      mayCommand n ops h.source = true → n ≠ 30 → equipped n ops s.cfg.roles = false →
      exec i s = .next (replyOnly h n .notApplicable s))

/-- 11 R162, check 4: an enumerated operand, count or index outside its set is answered OUT OF RANGE naming its
position, and nothing else changes: unit of CLEAR TRIP, direction of START CUTTERHEAD, count of TRAIN IN, index of READ
HISTORY, count of LOAD PLAN. -/
def Obligations.OperandsOutOfRangeRefused : Prop :=
  (∀ (h : CmdHead) (u : Nat) (s : State), 2 < u → u < 256 → s.life = .ready →
    exec (.clearTripThrust h [byteOf u]) s = .next (replyOnly h 4 (.outOfRange 0) s))
  ∧ (∀ (h : CmdHead) (v d : Nat) (s : State), v < 65536 → 1 < d → d < 256 → s.life = .ready → s.cfg.roles.drive = true →
    exec (.startCutterhead h (beBytes 2 v ++ beBytes 1 d)) s = .next (replyOnly h 12 (.outOfRange 1) s))
  ∧ (∀ (h : CmdHead) (n c : Nat) (s : State), n < 256 → n = 0 ∨ 8 < n → c < 65536 → s.life = .ready →
    s.cfg.roles.screw = true →
    exec (.trainIn h (beBytes 1 n ++ beBytes 2 c)) s = .next (replyOnly h 17 (.outOfRange 0) s))
  ∧ (∀ (h : CmdHead) (i : Nat) (s : State), 15 < i → i < 256 → s.life = .ready →
    exec (.readHistory h (beBytes 1 i)) s = .next (replyOnly h 27 (.outOfRange 0) s))
  ∧ (∀ (h : CmdHead) (ring : Nat) (es : List (Byte × Byte)) (s : State), ring < 65536 → es = [] ∨ 8 < es.length →
    es.length < 256 → s.life = .ready →
    exec (.loadPlan h (planOperands ring es)) s = .next (replyOnly h 6 (.outOfRange 1) s))

/-! ### Reset and start -/

/-- The station after a power-on reset meets every invariant of Safety.lean. -/
def Obligations.ResetMeetsInvariants : Prop :=
  TimersFollowLife State.reset ∧ BlindInReady State.reset ∧ QueueInOrder State.reset
    ∧ WithdrawnOnlyCovered State.reset ∧ DriveFit State.reset ∧ ScrewGated State.reset ∧ ScrewChosen State.reset
    ∧ PaceFollows State.reset ∧ HoldsFollow State.reset ∧ InjectsInAdvance State.reset ∧ OutputsFollow State.reset
    ∧ TrainBalanced State.reset ∧ HistoryInOrder State.reset ∧ RatioBounded State.reset ∧ PlanInOrder State.reset
    ∧ PeersInOrder State.reset ∧ OwnTripsKnown State.reset ∧ SequenceSettled State.reset
    ∧ SupportFollows State.reset ∧ InjectionFollows State.reset

/-- Every kind of reset puts each unit at the values its chapter gives (01 R19, R20; 02 R24, R31, R36, R37; 03 R39; 04
R65; 05 R78; 06 R93; 07 R107; 08 R120, R135; 09 R137, R143; 10 R152, R154, R158; 12 R165, R167, R170); RESTART is taken
in LISTENING, READY and CONFIG FAULT from the service terminal, with no REPLY. The field inputs keep their last readings
(model, log 6); drive OFF and line CLOSED stand whatever the roles, which are not read yet (model, log 7); listen count
and probe marker are cleared (model, log 30). -/
def Obligations.EveryResetRestoresDefaults : Prop :=
  (∀ (i : Instr) (s : State),
    i = .powerOnReset ∨ i = .pinReset
      ∨ (s.life ≠ .starting ∧ ∃ h : CmdHead, h.source = .service ∧ i = .restart h []) →
    Answers i s (fun t =>
      t.life = .starting ∧ t.inputs = s.inputs ∧ t.pending = s.pending
        ∧ t.view.peers = List.replicate 8 PeerEntry.absent ∧ t.view.trips = [] ∧ t.view.blind = false
        ∧ t.view.heard = false ∧ t.view.completion = false ∧ t.view.silence = 0 ∧ t.view.lring = 0
        ∧ t.view.screwConflict = false ∧ t.view.erectorConflict = false ∧ t.configClamped = false
        ∧ t.listen = 0 ∧ t.probe = false
        ∧ t.thrust.mode = .hold ∧ t.thrust.advance = 0 ∧ t.thrust.vlim = 0 ∧ t.thrust.vmax = 40 ∧ t.thrust.pmax = 300
        ∧ t.thrust.holds.stopped = true ∧ holdFlags t.thrust.holds = true :: List.replicate 9 false
        ∧ t.build.state = .ringOpen ∧ t.build.entries = [] ∧ t.build.index = 0 ∧ t.build.margin = 1200
        ∧ t.build.retry = none ∧ t.build.planMismatch = false ∧ t.build.marginLow = false
        ∧ t.erector.queue = [] ∧ t.erector.arrival = 0 ∧ t.erector.seq = .standby ∧ t.erector.working = none
        ∧ t.erector.feederEmpty = false ∧ t.erector.feederMismatch = false ∧ t.erector.feederOverfull = false
        ∧ t.drive.state = .off ∧ t.drive.target = 0 ∧ t.drive.direction = .cw ∧ t.drive.command = 0
        ∧ t.drive.trim = 0 ∧ t.drive.ramp = 100
        ∧ t.drive.stallLevel = 1500 ∧ t.drive.stallTime = 3 ∧ t.drive.stallStart = none ∧ t.drive.accumulator = 0
        ∧ t.drive.peakTorque = 0
        ∧ t.screw.state = .stopped ∧ t.screw.command = 0 ∧ t.screw.support = false ∧ t.screw.target = none
        ∧ t.screw.band = 20 ∧ t.screw.gain = 10 ∧ t.screw.sample = 0 ∧ t.screw.beltStart = none ∧ t.screw.beltTime = 30
        ∧ t.screw.pressureBand = false
        ∧ t.train.cars = [] ∧ t.train.mass = 0 ∧ t.train.overflow = 0 ∧ t.train.holdLevel = 5000
        ∧ t.train.slowLevel = 40000 ∧ t.train.pace = .hold ∧ t.train.reasons.train = .hold
        ∧ t.train.reasons.isOver = false ∧ t.train.reasons.beltSilent = false ∧ t.train.reasons.noTarget = true
        ∧ t.grout.line = .closed
        ∧ t.grout.active = { opens := 0, closes := 0, ratio := 1150, limit := 350 } ∧ t.grout.waiting = none
        ∧ t.grout.tail = none ∧ t.grout.used = false ∧ t.grout.rate = 0 ∧ t.grout.sample = 0 ∧ t.grout.strokes = 0
        ∧ t.grout.volume = 0 ∧ t.grout.potStart = none ∧ t.grout.flushStart = none ∧ t.grout.potLife = 1800
        ∧ t.grout.flushTime = 120 ∧ t.grout.saturated = false ∧ t.grout.setting = false ∧ t.grout.gmin = 0
        ∧ t.records.limits = { lower := 920, upper := 1080 } ∧ t.records.waitingLimits = none
        ∧ t.bus.queue = [] ∧ t.bus.offer = none ∧ t.bus.lastSource = none ∧ t.bus.faults = 0 ∧ t.bus.lineFault = false
        ∧ t.bus.renewal = false ∧ t.bus.page = 0
        ∧ t.clock.noticeDue = none ∧ t.clock.controlDue = none ∧ t.clock.driveDue = none ∧ t.out = Outputs.starting
        ∧ t.records.current.ring = t.records.ring
        ∧ (i = .powerOnReset →
            t.records.ring = 0 ∧ t.records.history = [] ∧ t.records.current.cause = .start)
        ∧ (i ≠ .powerOnReset →
            t.records.ring = s.records.ring ∧ t.records.history = s.records.history
              ∧ t.records.current.cause = .restarted)))

/-- 12 R165 to R167: a memory whose check byte or format marker is wrong, or a pin address not below the clamped N, puts
the station in CONFIG FAULT with every unit as it stood; any other reading puts it in LISTENING with the judged values,
CONFIG CLAMPED where one differs, the three timers started, and drive and line OFF and CLOSED, or ABSENT without their
role; ring number and history are kept. 02 R21, R29: the force that stands at the input is the first force reading there
(model, log 16, for its place in this event and in the record): above the trip force it trips the group. A byte that is
not answered reads as all ones, and a memory that answers none ends in CONFIG FAULT. Outside STARTING the row changes nothing (model, log 5). -/
def Obligations.ConfigurationReadDecides : Prop :=
  (∀ (pins : BitVec 3) (m : List Byte) (s : State), s.life = .starting → m.length = 32 →
    (m.getD 31 0).toNat ≠ 255 - ((m.take 31).map BitVec.toNat).sum % 256 ∨ m.getD 0 0 ≠ 58
      ∨ max 4 (min (m.getD 1 0).toNat 8) ≤ pins.toNat →
    Answers (.configurationRead pins (m.map some)) s (fun t =>
      { t with configClamped := s.configClamped } = { s with life := .configFault, own := pins.toNat }))
  ∧ (∀ (pins : BitVec 3) (m : List Byte) (s : State), s.life = .starting → m.length = 32 →
    (m.getD 31 0).toNat = 255 - ((m.take 31).map BitVec.toNat).sum % 256 → m.getD 0 0 = 58 →
    pins.toNat < max 4 (min (m.getD 1 0).toNat 8) →
    Answers (.configurationRead pins (m.map some)) s (fun t =>
      t.life = .listening ∧ t.own = pins.toNat ∧ t.cfg.n = max 4 (min (m.getD 1 0).toNat 8)
        ∧ t.cfg.roles.screw = (m.getD 2 0).getLsbD 7 ∧ t.cfg.roles.erector = (m.getD 2 0).getLsbD 6
        ∧ t.cfg.roles.drive = (m.getD 2 0).getLsbD 5 ∧ t.cfg.roles.line = (m.getD 2 0).getLsbD 4
        ∧ (let word (i : Nat) : Nat := beNat ((m.drop i).take 2)
           let byte (i : Nat) : Nat := (m.getD i 0).toNat
           t.cfg.af = max 100 (min (word 3) 9999) ∧ t.cfg.aa = max 10 (min (word 5) 2000)
             ∧ t.cfg.w = max 5000 (min (word 7) 25000) ∧ t.cfg.smax = max (t.cfg.w + 500) (min (word 9) 30000)
             ∧ t.cfg.rho = max 1000 (min (word 11) 3000) ∧ t.cfg.beltScale = max 1 (min (byte 13) 50)
             ∧ t.cfg.addScale = max 1 (min (byte 15) 50) ∧ t.cfg.vrev = max 10 (min (word 16) 2000)
             ∧ t.cfg.nmax = max 10 (min (word 18) 300) ∧ t.cfg.vs = max 100 (min (word 20) 10000)
             ∧ t.cfg.pumpMax = max 1 (min (byte 22) 120) ∧ t.cfg.tn = max 10 (min (byte 23) 100)
             ∧ t.cfg.k = max 2 (min (byte 24) 20) ∧ t.cfg.tripForce = max 1000 (min (word 25) 16000)
             ∧ t.cfg.pressForce = min (max 100 (min (word 27) 8000)) (t.cfg.tripForce - 1)
             ∧ t.configClamped =
                 decide
                   ([t.cfg.n, t.cfg.af, t.cfg.aa, t.cfg.w, t.cfg.smax, t.cfg.rho, t.cfg.beltScale, t.cfg.addScale,
                     t.cfg.vrev, t.cfg.nmax, t.cfg.vs, t.cfg.pumpMax, t.cfg.tn, t.cfg.k, t.cfg.tripForce, t.cfg.pressForce]
                     ≠ [byte 1, word 3, word 5, word 7, word 9, word 11, byte 13, byte 15, word 16, word 18, word 20,
                        byte 22, byte 23, byte 24, word 25, word 27]))
        ∧ t.listen = 0 ∧ t.probe = false
        ∧ t.clock =
            { now := s.clock.now, noticeDue := some (s.clock.now + t.cfg.tn), controlDue := some (s.clock.now + 1000),
              driveDue := some (s.clock.now + 100) }
        ∧ (WithdrawnOnlyCovered s →
            t.records.ring = s.records.ring ∧ t.records.history = s.records.history
              ∧ t.records.current.peakForce = s.inputs.force)
        ∧ (s.thrust.mode = .hold → t.cfg.tripForce < s.inputs.force →
            t.thrust.mode = .tripped ∧ (t.own, TripCause.thrust) ∈ t.view.trips
              ∧ (s.bus.queue = [] → ∃ x ∈ t.bus.queue, x.notice = .trip .thrust))
        ∧ (s.thrust.mode = .hold → s.inputs.force ≤ t.cfg.tripForce → t.thrust.mode ≠ .tripped)
        ∧ t.drive.state = (if t.cfg.roles.drive then .off else .absent)
        ∧ t.grout.line = (if t.cfg.roles.line then .closed else .absent)))
  ∧ (∀ (pins : BitVec 3) (bytes : List (Option Byte)) (s : State), bytes.length = 32 →
    exec (.configurationRead pins bytes) s = exec (.configurationRead pins (bytes.map (fun b => some (b.getD 255)))) s)
  ∧ (∀ (pins : BitVec 3) (s : State), s.life = .starting →
    exec (.configurationRead pins (List.replicate 32 none)) s = .next { s with life := .configFault, own := pins.toNat })
  ∧ (∀ (pins : BitVec 3) (bytes : List (Option Byte)) (s : State), s.life ≠ .starting →
    exec (.configurationRead pins bytes) s = .next s)

/-! ### Thrust unit -/

/-- 02 R31: START ADVANCE removes STOPPED in OPEN and is BUSY otherwise; STOP ADVANCE adds it in every state. -/
def Obligations.AdvanceCommandsSetStopped : Prop :=
  (∀ (h : CmdHead) (s : State), s.life = .ready → s.build.state = .ringOpen →
    Answers (.startAdvance h []) s (fun t =>
      FrameOf { s with thrust := { s.thrust with holds := { s.thrust.holds with stopped := false } } } t
        ∧ planOf t = planOf s ∧ Answered h 1 .done s t
        ∧ (s.thrust.mode = .hold → t.thrust.mode = if holdsEmpty t.thrust.holds then .advance else .hold)
        ∧ (s.thrust.mode ≠ .hold → s.thrust.mode ≠ .advance → t.thrust.mode = s.thrust.mode)))
  ∧ (∀ (h : CmdHead) (s : State), s.life = .ready → s.build.state ≠ .ringOpen →
    exec (.startAdvance h []) s = .next (replyOnly h 1 .busy s))
  ∧ (∀ (h : CmdHead) (s : State), s.life = .ready →
    Answers (.stopAdvance h []) s (fun t =>
      FrameOf { s with thrust := { s.thrust with holds := { s.thrust.holds with stopped := true } } } t
        ∧ Answered h 2 .done s t ∧ t.thrust.mode ≠ .advance))

/-- 02 R37, R36: SET ADVANCE LIMITS takes both values, clamped, in every mode and build state, and v_lim follows in the
same event; the answer is CLAMPED naming the first clamped operand, or DONE; every kind of reset returns 40 and 300. -/
def Obligations.AdvanceLimitsClampedAndUsed : Prop :=
  (∀ (h : CmdHead) (v p : Nat) (s : State), v < 256 → p < 65536 → s.life = .ready →
    Answers (.setAdvanceLimits h (beBytes 1 v ++ beBytes 2 p)) s (fun t =>
      FrameOf { s with thrust := { s.thrust with vmax := min v 120, pmax := max 10 (min p 1000) } } t
        ∧ Answered h 3 (clampedOr .done [(v, min v 120), (p, max 10 (min p 1000))]) s t
        ∧ t.thrust.vlim = speedLimit t))
  ∧ (∀ (s : State), Answers .powerOnReset s (fun t => t.thrust.vmax = 40 ∧ t.thrust.pmax = 300))
  ∧ (∀ (s : State), Answers .pinReset s (fun t => t.thrust.vmax = 40 ∧ t.thrust.pmax = 300))
  ∧ (∀ (h : CmdHead) (s : State), h.source = .service → s.life ≠ .starting →
    Answers (.restart h []) s (fun t => t.thrust.vmax = 40 ∧ t.thrust.pmax = 300))

/-- 02 R30: CLEAR TRIP with unit THRUST at a TRIPPED group with force at or below 90 % of the trip force re-arms it,
above that is BUSY, and at any other mode changes nothing and is answered DONE. -/
def Obligations.ThrustTripCleared : Prop :=
  (∀ (h : CmdHead) (s : State), s.life = .ready → s.thrust.mode = .tripped →
    s.inputs.force * 10 ≤ s.cfg.tripForce * 9 →
    Answers (.clearTripThrust h [0]) s (fun t =>
      t.thrust.mode ≠ .tripped ∧ (s.own, TripCause.thrust) ∉ t.view.trips
        ∧ FrameOf
            { s with view := { s.view with trips := s.view.trips.filter (fun q => q ≠ (s.own, TripCause.thrust)) } } t
        ∧ Answered h 4 .done s t
        ∧ (s.build.state = .ringOpen → t.thrust.mode = if holdsEmpty t.thrust.holds then .advance else .hold)
        ∧ (s.build.state = .suspended → s.cfg.roles.erector = false → t.thrust.mode = .hold)
        ∧ (s.build.state = .building → s.cfg.roles.erector = false →
            t.thrust.mode = .hold ∨ (withdrawn t = true ∧ ownCovered s = true ∧ marginMet s = true))))
  ∧ (∀ (h : CmdHead) (s : State), s.life = .ready → s.thrust.mode = .tripped →
    s.cfg.tripForce * 9 < s.inputs.force * 10 → exec (.clearTripThrust h [0]) s = .next (replyOnly h 4 .busy s))
  ∧ (∀ (h : CmdHead) (s : State), s.life = .ready → s.thrust.mode ≠ .tripped →
    exec (.clearTripThrust h [0]) s = .next (doneOnly h 4 s))

/-- 02 R21, R22, R35: a stroke reading within an advance spell adds what lies above the mark to advance-this-ring, at
most 65,535; in every other mode it adds nothing; an input outside its range reads 32,767; at or above S_max the group
is not in ADVANCE. -/
def Obligations.StrokeReadingCounted : Prop :=
  (∀ (r : Reading) (s : State), s.running = true → readingFits 32767 r = true → s.thrust.advance ≤ 65535 →
    Answers (.strokeReading r) s (fun t =>
      FrameOf
          { s with
            inputs := { s.inputs with stroke := r.getD 32767 }
            thrust :=
              { s.thrust with
                advance :=
                  if s.thrust.mode = .advance then
                    min (s.thrust.advance + (r.getD 32767 - s.thrust.mark.getD 32767)) 65535
                  else s.thrust.advance } } t
        ∧ (s.cfg.smax ≤ r.getD 32767 → t.thrust.mode ≠ .advance)
        ∧ (HoldsFollow s → s.thrust.mode = .advance → t.thrust.mode = .advance →
            t.thrust.mark = s.thrust.mark.map (fun m => max m (r.getD 32767)))))
  ∧ (∀ (r : Reading) (s : State), s.running = false → readingFits 32767 r = true →
    exec (.strokeReading r) s = .next { s with inputs := { s.inputs with stroke := r.getD 32767 } })

/-- 02 R29, R21, R15: a force reading above the trip force (an input outside its range reads 20,000 kN) puts the group
in TRIPPED with both valves closed and the lock engaged, the own pair enters the trip memory, a TRIP notice is queued
and a build is suspended. 02 R28: at or above the pressing force a PRESSING group leaves PRESSING. Any other reading is
only recorded: it trips no group, ends no PRESSING and no withdrawal, and HOLD and ADVANCE follow the hold reasons (02
R25). -/
def Obligations.ForceReadingJudged : Prop :=
  (∀ (r : Reading) (s : State), s.running = true → readingFits 20000 r = true → s.cfg.tripForce < r.getD 20000 →
    s.thrust.mode ≠ .tripped →
    Answers (.forceReading r) s (fun t =>
      t.thrust.mode = .tripped ∧ t.out.extend = .closed ∧ t.out.retract = false ∧ t.out.lock = true
        ∧ (s.own, TripCause.thrust) ∈ t.view.trips
        ∧ (s.bus.queue.length < 6 → ∃ x ∈ t.bus.queue, x.notice = .trip .thrust)
        ∧ (s.view.trips = [] → t.build.state ≠ .building)
        ∧ baseOf t =
            baseOf
              { s with
                inputs := { s.inputs with force := r.getD 20000 }
                view := { s.view with trips := withPair (s.own, .thrust) s.view.trips } }))
  ∧ (∀ (r : Reading) (s : State), s.running = true → readingFits 20000 r = true → r.getD 20000 ≤ s.cfg.tripForce →
    s.thrust.mode = .pressing → s.cfg.pressForce ≤ r.getD 20000 →
    Answers (.forceReading r) s (fun t =>
      FrameOf
          { s with
            inputs := { s.inputs with force := r.getD 20000 }
            records :=
              { s.records with
                current :=
                  { s.records.current with peakForce := max s.records.current.peakForce (r.getD 20000) } } } t
        ∧ (s.build.state = .ringOpen → t.thrust.mode = if holdsEmpty t.thrust.holds then .advance else .hold)
        ∧ (s.cfg.roles.erector = false → t.thrust.mode ≠ .pressing)))
  ∧ (∀ (r : Reading) (s : State), s.running = true → readingFits 20000 r = true →
    r.getD 20000 ≤ s.cfg.tripForce ∨ s.thrust.mode = .tripped →
    s.thrust.mode ≠ .pressing ∨ r.getD 20000 < s.cfg.pressForce →
    Answers (.forceReading r) s (fun t =>
      FrameOf
          { s with
            inputs := { s.inputs with force := r.getD 20000 }
            records :=
              { s.records with
                current :=
                  { s.records.current with peakForce := max s.records.current.peakForce (r.getD 20000) } } } t
        ∧ (s.thrust.mode = .tripped ↔ t.thrust.mode = .tripped)
        ∧ (s.cfg.roles.erector = false →
            t.thrust.mode =
              if s.thrust.mode = .hold ∨ s.thrust.mode = .advance then
                (if holdsEmpty t.thrust.holds then .advance else .hold)
              else s.thrust.mode)))

/-- 02 R27: the retracted-limit input becoming active takes a RETRACTING group to CLEAR; in CLEAR the retract valve is
open while the input is inactive. -/
def Obligations.RetractedLimitTakesToClear : Prop :=
  ∀ (active : Bool) (s : State), s.running = true →
    Answers (.retractedLimitInput active) s (fun t =>
      FrameOf { s with inputs := { s.inputs with retracted := active } } t
        ∧ (s.cfg.roles.erector = false →
            (s.thrust.mode = .retracting → t.thrust.mode = if active then .clear else .retracting)
              ∧ (s.thrust.mode = .clear → t.thrust.mode = .clear))
        ∧ (t.thrust.mode = .clear → t.out.retract = !active))

/-! ### Peer view -/

/-- 01 R3, R15, R16, R17; 10 R152: a STATE from a taken source replaces the stored body of its entry, at age 0, FRESH,
with its pace in the pace field; the trip memory then holds, of the source, exactly the causes its own-trip field lists,
its other pairs as before; the heard marker is set and the source is the last STATE source. R18: a BLIND station whose
completion marker is set leaves BLIND, with its silence count at 0. R19, R20: a role conflict stands exactly while a
FRESH peer of lower address carries the role. 03 R47: the erector station in view seen to go from BUILDING to SUSPENDED
on the own ring suspends the own build. 03 R57: its higher progress index on the own ring, below the own count, is caught
up with, the build going on unless the entry reached is EMPTY, the body shows that suspension, or it brings the first
trip in view (03 R46); an index at or above the count raises PLAN MISMATCH and moves nothing. -/
def Obligations.StateArrivalKept : Prop :=
  (∀ (src : Nat) (body : StateBody) (s : State), s.running = true → src < 8 → src < s.cfg.n → src ≠ s.own →
    Answers (.stateArrival src body) s (fun t =>
      t.view.peers =
          s.view.peers.set src { held := some { body := body, age := 0, fresh := true }, pace := some body.pace }
        ∧ ((src, TripCause.thrust) ∈ t.view.trips ↔ body.ownThrust = true)
        ∧ ((src, TripCause.stall) ∈ t.view.trips ↔ body.ownStall = true)
        ∧ (∀ q : TripPair, q.1 ≠ src ∨ q.2 = .cabStop → (q ∈ t.view.trips ↔ q ∈ s.view.trips))
        ∧ t.view.heard = true
        ∧ (s.view.peers.length = 8 →
            t.view.blind = (s.view.blind && !s.view.completion)
              ∧ (s.view.blind = true → s.view.completion = true → t.view.silence = 0))
        ∧ t.view.screwConflict = (s.cfg.roles.screw && lowerClaims Roles.screw t)
        ∧ t.view.erectorConflict = (s.cfg.roles.erector && lowerClaims Roles.erector t)
        ∧ baseOf t = { baseOf s with view := (baseOf t).view, bus := { (baseOf s).bus with lastSource := some src } }))
  ∧ (∀ (src : Nat) (body : StateBody) (x : Heard) (s : State), s.life = .ready → src < 8 → src < s.cfg.n → src ≠ s.own →
    s.view.peers.length = 8 → (s.cfg.roles.erector = true → src < s.own) → body.roles.erector = true →
    (freshPeers s).all (fun p => !p.2.roles.erector || decide (src ≤ p.1)) = true →
    (entryOf s src).held = some x → x.body.build = .building → body.build = .suspended →
    body.ring = s.records.ring → s.build.state = .building →
    Answers (.stateArrival src body) s (fun t =>
      t.build.state = .suspended
        ∧ (s.cfg.roles.erector = false → body.index ≤ s.build.index →
            t.build.index = s.build.index ∧ t.build.entries = s.build.entries
              ∧ (withdrawn s = true → ownCovered s = true →
                  currentEntryState s = some .pending ∨ currentEntryState s = some .empty →
                  s.inputs.force < s.cfg.pressForce → t.thrust.mode = .pressing))))
  ∧ (∀ (src : Nat) (body : StateBody) (e : PlanEntry) (s : State), s.life = .ready → src < 8 → src < s.cfg.n →
    src ≠ s.own → s.view.peers.length = 8 → s.cfg.roles.erector = false → body.roles.erector = true →
    (freshPeers s).all (fun p => !p.2.roles.erector || decide (src ≤ p.1)) = true →
    body.ring = s.records.ring → body.build ≠ .ringOpen ∨ body.ring ≠ 65535 → s.build.state ≠ .ringOpen →
    s.build.index < body.index →
    s.build.entries[body.index]? = some e →
    Answers (.stateArrival src body) s (fun t =>
      t.build.index = body.index ∧ t.build.retry = none
        ∧ t.build.entries =
            (s.build.entries.take body.index).map (fun p => { p with state := .set })
              ++ s.build.entries.drop body.index
        ∧ t.build.planMismatch = (s.build.planMismatch || decide (e.state = .empty))
        ∧ t.build.state =
            (if s.build.state = .building
                ∧ (e.state = .empty ∨ (s.view.trips = [] ∧ (body.ownThrust = true ∨ body.ownStall = true))
                  ∨ (body.build = .suspended
                    ∧ (entryOf s src).held.map (fun x => x.body.build) = some .building)) then .suspended
             else s.build.state)
        ∧ t.records.current.build.map BuildPart.caughtUp = s.records.current.build.map (fun _ => true)
        ∧ (withdrawn s = true → s.inputs.force < s.cfg.pressForce → t.thrust.mode = .pressing)))
  ∧ (∀ (src : Nat) (body : StateBody) (s : State), s.life = .ready → src < 8 → src < s.cfg.n → src ≠ s.own →
    s.view.peers.length = 8 → s.cfg.roles.erector = false → body.roles.erector = true →
    (freshPeers s).all (fun p => !p.2.roles.erector || decide (src ≤ p.1)) = true →
    body.ring = s.records.ring → body.build ≠ .ringOpen ∨ body.ring ≠ 65535 → s.build.state ≠ .ringOpen →
    s.build.index < body.index →
    s.build.entries.length ≤ body.index →
    Answers (.stateArrival src body) s (fun t =>
      t.build.planMismatch = true ∧ t.build.index = s.build.index ∧ t.build.entries = s.build.entries))

/-- 01 R15: a TRIP of a taken station with cause THRUST or STALL, and a CAB STOP from the cab, enter the trip memory,
hold the group and suspend a build; every other TRIP is discarded. 01 R5: a PACE from a taken source writes the pace
field of its entry and nothing else of it. 01 R2: from a source that is not taken either is discarded. -/
def Obligations.TripAndPaceArrivalsKept : Prop :=
  (∀ (src : Nat) (cause : TripCause) (s : State), s.running = true → src < s.cfg.n → src < 8 → src ≠ s.own →
    cause ≠ .cabStop →
    Answers (.tripArrival src cause) s (fun t =>
      baseOf t = baseOf { s with view := { s.view with trips := withPair (src, cause) s.view.trips } }
        ∧ (src, cause) ∈ t.view.trips ∧ t.thrust.mode ≠ .advance
        ∧ (s.view.trips = [] → t.build.state ≠ .building)))
  ∧ (∀ (s : State), s.running = true → s.own < 8 →
    Answers (.tripArrival 14 .cabStop) s (fun t =>
      baseOf t = baseOf { s with view := { s.view with trips := withPair (14, .cabStop) s.view.trips } }
        ∧ (14, TripCause.cabStop) ∈ t.view.trips ∧ t.thrust.mode ≠ .advance
        ∧ (s.view.trips = [] → t.build.state ≠ .building)))
  ∧ (∀ (src : Nat) (cause : TripCause) (s : State), src ≠ s.own →
    (src ≠ 14 ∧ (s.cfg.n ≤ src ∨ cause = .cabStop)) ∨ (src = 14 ∧ cause ≠ .cabStop) →
    exec (.tripArrival src cause) s = .next s)
  ∧ (∀ (src : Nat) (p : Pace) (s : State), s.running = true → src < s.cfg.n → src < 8 → src ≠ s.own →
    Answers (.paceArrival src p) s (fun t =>
      FrameOf
          { s with
            view :=
              { s.view with
                peers :=
                  s.view.peers.set src { held := (s.view.peers.getD src PeerEntry.absent).held, pace := some p } } } t
        ∧ t.thrust.vlim = speedLimit t))
  ∧ (∀ (src : Nat) (p : Pace) (s : State), src ≠ s.own → s.cfg.n ≤ src → exec (.paceArrival src p) s = .next s)

/-- 01 R4, R17; 10 R158: at an expiry of the notice-period timer every held age rises by 1, at most to 255, an entry
whose age passes k goes STALE; the silence count of a READY station rises by 1, at most to k, without a FRESH entry, and is
0 with one and while no STATE has been heard; one that reaches k makes the station BLIND; a STATE stands in the transmit
queue unless the queue is full, and one on offer has the renewal mark set. R19, R20: each role conflict is judged again on the aged view. The clock stands
at least at the moment the expiry was due, and the next is due one period later (model, log 3); with the timer idle the
row changes nothing (model, log 3, log 5). -/
def Obligations.NoticePeriodAgesAndReports : Prop :=
  (∀ (d : Nat) (s : State), s.running = true → s.clock.noticeDue = some d →
    Answers .noticePeriodExpiry s (fun t =>
      t.view.peers =
          s.view.peers.map (fun e =>
            match e.held with
            | none => e
            | some x =>
              { e with
                held :=
                  some
                    { x with
                      age := min (x.age + 1) 255
                      fresh := x.fresh && decide (min (x.age + 1) 255 ≤ s.cfg.k) } })
        ∧ t.view.trips = s.view.trips ∧ t.view.heard = s.view.heard ∧ (t.view.completion = true → s.view.completion = true)
        ∧ ((∃ x ∈ t.bus.queue, x.notice = .state) ∨ 6 ≤ t.bus.queue.length)
        ∧ t.clock = { s.clock with now := max s.clock.now d, noticeDue := some (d + s.cfg.tn) }
        ∧ (s.life = .ready → s.view.silence < s.cfg.k →
            t.view.blind =
              (s.view.blind
                || (s.view.heard && decide (s.view.silence + 1 = s.cfg.k) && (freshPeers t).isEmpty)))
        ∧ (s.life = .ready →
            t.view.silence =
              if s.view.heard = true ∧ freshPeers t = [] then min (s.view.silence + 1) s.cfg.k else 0)
        ∧ (s.life = .listening → t.view.silence = s.view.silence)
        ∧ (QueueInOrder s →
            t.bus.renewal =
              (s.bus.renewal || s.bus.queue.any (fun x => decide (x.notice = .state) && x.offering)))
        ∧ (s.life = .listening → t.listen = min (s.listen + 1) (s.cfg.k + 1))
        ∧ t.view.screwConflict = (s.cfg.roles.screw && lowerClaims Roles.screw t)
        ∧ t.view.erectorConflict = (s.cfg.roles.erector && lowerClaims Roles.erector t)))
  ∧ (∀ (s : State), s.clock.noticeDue = none → exec .noticePeriodExpiry s = .next s)

/-- 01 R17: the aging expiry at which the silence count reaches k makes a READY station BLIND, clears its completion
marker, suspends a build and holds the group. 03 R54, R52: the aging expiry at which a retry wait's count reaches k ends
the wait, and a covered HOLD group whose entry is PENDING withdraws at once. That each row is that expiry whole is the
model's choice (model, log 4), as are the clauses on the clock (model, log 3). -/
def Obligations.SilenceAndRetryWaitEnd : Prop :=
  (∀ (d : Nat) (s : State), s.life = .ready → s.clock.noticeDue = some d → s.view.heard = true → s.view.blind = false →
    s.view.silence + 1 = s.cfg.k → freshPeers (ageView s) = [] →
    Answers .silenceCountReachingK s (fun t =>
      t.view.blind = true ∧ t.view.completion = false ∧ t.view.silence = s.cfg.k ∧ t.thrust.mode ≠ .advance
        ∧ t.build.state ≠ .building ∧ t.view.peers = (ageView s).view.peers ∧ t.view.trips = s.view.trips
        ∧ t.clock = { s.clock with now := max s.clock.now d, noticeDue := some (d + s.cfg.tn) }))
  ∧ (∀ (d c : Nat) (s : State), s.life = .ready → s.clock.noticeDue = some d → s.cfg.roles.erector = false →
    s.build.state = .building → s.build.retry = some c → s.cfg.k ≤ c + 1 → marginMet (ageView s) = true →
    freshPeers (ageView s) ≠ [] → s.view.trips = [] → s.view.blind = false →
    Answers .retryWaitEnd s (fun t =>
      t.build.retry = none ∧ t.view.peers = (ageView s).view.peers ∧ t.build.entries = s.build.entries
        ∧ t.build.state = .building
        ∧ t.clock = { s.clock with now := max s.clock.now d, noticeDue := some (d + s.cfg.tn) }
        ∧ (s.thrust.mode = .hold → ownCovered s = true → currentEntryState s = some .pending →
            t.thrust.mode = if s.inputs.retracted then .clear else .retracting)))

/-- 05 R89: CLEAR TRIP with unit DRIVE re-arms a STALLED drive at standstill to OFF, is BUSY with speed 5 or more or
torque 100 or more, and changes nothing at any other state. 01 R16: CLEAR TRIP with unit CAB STOP from the cab removes
that pair and is answered DONE. -/
def Obligations.DriveAndCabTripsCleared : Prop :=
  (∀ (h : CmdHead) (s : State), s.life = .ready → s.cfg.roles.drive = true → s.drive.state = .stalled →
    s.inputs.speed < 5 → s.inputs.torque < 100 →
    Answers (.clearTripDrive h [1]) s (fun t =>
      t.drive.state = .off ∧ (s.own, TripCause.stall) ∉ t.view.trips
        ∧ FrameOf
            { s with
              drive := { s.drive with state := .off, trim := 0, stallStart := none }
              view := { s.view with trips := s.view.trips.filter (fun q => q ≠ (s.own, TripCause.stall)) } } t
        ∧ Answered h 4 .done s t))
  ∧ (∀ (h : CmdHead) (s : State), s.life = .ready → s.cfg.roles.drive = true → s.drive.state = .stalled →
    5 ≤ s.inputs.speed ∨ 100 ≤ s.inputs.torque → exec (.clearTripDrive h [1]) s = .next (replyOnly h 4 .busy s))
  ∧ (∀ (h : CmdHead) (s : State), s.life = .ready → s.cfg.roles.drive = true → s.drive.state ≠ .stalled →
    exec (.clearTripDrive h [1]) s = .next (doneOnly h 4 s))
  ∧ (∀ (h : CmdHead) (s : State), s.life = .ready → s.cfg.roles.drive = false →
    exec (.clearTripDrive h [1]) s = .next (replyOnly h 4 .notApplicable s))
  ∧ (∀ (h : CmdHead) (s : State), s.life = .ready → h.source = .cab →
    Answers (.clearTripCabStop h [2]) s (fun t =>
      FrameOf { s with view := { s.view with trips := s.view.trips.filter (fun q => q ≠ (14, TripCause.cabStop)) } } t
        ∧ Answered h 4 .done s t))

/-! ### Build unit -/

/-- 03 R41 to R43: LOAD PLAN in OPEN for the own ring replaces the whole plan; in SUSPENDED it keeps the SET entries and
replaces the others; a refused entry is named; BUILDING is BUSY, another ring PLAN MISMATCH, a claimed opening BUSY, a
count not above the progress index or a changed SET entry PLAN MISMATCH, each leaving everything as it was. -/
def Obligations.LoadPlanChecksAndEffect : Prop :=
  (∀ (h : CmdHead) (ring : Nat) (es : List (Byte × Byte)) (s : State), s.life = .ready → s.build.state = .ringOpen →
    ring < 65536 → ring = s.records.ring → 1 ≤ es.length → es.length ≤ 8 →
    (List.range es.length).all (fun j => !badAt s.cfg.n es j) = true →
    Answers (.loadPlan h (planOperands ring es)) s (fun t =>
      planOf t =
          { planOf s with planRing := ring, entries := es.map readEntry, index := 0, planMismatch := false }
        ∧ baseOf t = baseOf s ∧ (s.erector.seq ≠ .awaitingPress → ringOf t = ringOf s) ∧ Answered h 6 .done s t))
  ∧ (∀ (h : CmdHead) (ring j : Nat) (es : List (Byte × Byte)) (s : State), s.life = .ready → ring < 65536 →
    es.length ≤ 8 → j < es.length → badAt s.cfg.n es j = true →
    (List.range j).all (fun i => !badAt s.cfg.n es i) = true →
    exec (.loadPlan h (planOperands ring es)) s = .next (replyOnly h 6 (.outOfRange (2 + j)) s))
  ∧ (∀ (h : CmdHead) (ring : Nat) (es : List (Byte × Byte)) (s : State), s.life = .ready → ring < 65536 →
    1 ≤ es.length → es.length ≤ 8 → (List.range es.length).all (fun j => !badAt s.cfg.n es j) = true →
    s.build.state = .building → exec (.loadPlan h (planOperands ring es)) s = .next (replyOnly h 6 .busy s))
  ∧ (∀ (h : CmdHead) (ring : Nat) (es : List (Byte × Byte)) (s : State), s.life = .ready → ring < 65536 →
    1 ≤ es.length → es.length ≤ 8 → (List.range es.length).all (fun j => !badAt s.cfg.n es j) = true →
    s.build.state ≠ .building → ring ≠ s.records.ring →
    exec (.loadPlan h (planOperands ring es)) s = .next (replyOnly h 6 .planMismatch s))
  ∧ (∀ (h : CmdHead) (es : List (Byte × Byte)) (s : State), s.life = .ready → s.records.ring < 65536 →
    1 ≤ es.length → es.length ≤ 8 → (List.range es.length).all (fun j => !badAt s.cfg.n es j) = true →
    s.build.state = .suspended → currentEntryState s = some .claimed ∨ currentEntryState s = some .placed →
    exec (.loadPlan h (planOperands s.records.ring es)) s = .next (replyOnly h 6 .busy s))
  ∧ (∀ (h : CmdHead) (es : List (Byte × Byte)) (s : State), s.life = .ready → s.records.ring < 65536 →
    1 ≤ es.length → es.length ≤ 8 → (List.range es.length).all (fun j => !badAt s.cfg.n es j) = true →
    s.build.state = .suspended → currentEntryState s ≠ some .claimed → currentEntryState s ≠ some .placed →
    s.build.index ≤ s.build.entries.length →
    es.length ≤ s.build.index
      ∨ (s.build.entries.take s.build.index).map (fun e => (e.piece, e.key, e.cover))
          ≠ ((es.map readEntry).take s.build.index).map (fun e => (e.piece, e.key, e.cover)) →
    exec (.loadPlan h (planOperands s.records.ring es)) s = .next (replyOnly h 6 .planMismatch s))
  ∧ (∀ (h : CmdHead) (es : List (Byte × Byte)) (s : State), s.life = .ready → s.records.ring < 65536 →
    es.length ≤ 8 → (List.range es.length).all (fun j => !badAt s.cfg.n es j) = true →
    s.build.state = .suspended → currentEntryState s ≠ some .claimed → currentEntryState s ≠ some .placed →
    s.build.index < es.length → (es.take s.build.index).all (fun b => !b.1.getLsbD 7) = true →
    (s.build.entries.take s.build.index).map (fun e => (e.piece, e.key, e.cover))
      = ((es.map readEntry).take s.build.index).map (fun e => (e.piece, e.key, e.cover)) →
    s.cfg.roles.erector = false ∨ s.erector.seq = .standby →
    Answers (.loadPlan h (planOperands s.records.ring es)) s (fun t =>
      planOf t =
          { planOf s with
            entries := s.build.entries.take s.build.index ++ (es.map readEntry).drop s.build.index
            planMismatch := false }
        ∧ baseOf t = baseOf s ∧ ringOf t = ringOf s ∧ Answered h 6 .done s t))

/-- 03 R44, R45, R52: BEGIN BUILD is refused by the first condition that is not met, and nothing changes; taken, it adds
STOPPED, sets BUILDING at index 0 with entry 0 PENDING, gives the record a build part, and a covered group withdraws
when the margin is met. -/
def Obligations.BeginBuildChecksAndEffect : Prop :=
  (∀ (h : CmdHead) (ring : Nat) (r : Result) (s : State), s.life = .ready → ring < 65536 →
    (if s.build.state ≠ .ringOpen then some Result.busy
     else if ring ≠ s.records.ring then some .planMismatch
     else if s.build.entries = [] ∨ s.build.planRing ≠ s.records.ring then some .notReady
     else if s.build.entries.any (fun e => e.state = .empty) = true then some .notReady
     else if s.thrust.mode ≠ .hold then some .notReady
     else if s.thrust.advance < s.cfg.w then some .notReady
     else if s.view.trips ≠ [] then some .notReady
     else if s.view.blind = true then some .notReady
     else none) = some r →
    exec (.beginBuild h (beBytes 2 ring)) s = .next (replyOnly h 7 r s))
  ∧ (∀ (h : CmdHead) (s : State), s.life = .ready → s.records.ring < 65536 → s.build.state = .ringOpen →
    s.build.entries ≠ [] → s.build.planRing = s.records.ring →
    s.build.entries.any (fun e => e.state = .empty) = false → s.thrust.mode = .hold → s.cfg.w ≤ s.thrust.advance →
    s.view.trips = [] → s.view.blind = false →
    Answers (.beginBuild h (beBytes 2 s.records.ring)) s (fun t =>
      Answered h 7 .done s t ∧ t.thrust.holds.stopped = true
        ∧ (SequenceSettled s → t.build.state ≠ .ringOpen ∧ t.records.current.build.isSome = true)
        ∧ t.drive.state ≠ .starting ∧ t.drive.state ≠ .running
        ∧ baseOf t =
            baseOf { s with thrust := { s.thrust with holds := { s.thrust.holds with stopped := true } } }
        ∧ (s.erector.seq ≠ .awaitingPress → ringOf t = ringOf s)
        ∧ (s.cfg.roles.erector = false →
            planOf t =
                { planOf s with
                  state := .building, index := 0, retry := none
                  entries := s.build.entries.modify 0 (fun e => { e with state := .pending }) }
              ∧ t.records.current.build = some (s.records.current.build.getD BuildPart.fresh)
              ∧ t.thrust.mode =
                  (if ((s.build.entries.head?.map PlanEntry.cover).getD []).contains s.own && marginMet s then
                     (if s.inputs.retracted then .clear else .retracting)
                   else .hold))))

/-- 03 R46, R48 to R50: SUSPEND BUILD suspends a BUILDING build and presses a withdrawn group whose entry is PENDING;
RESUME BUILD answers as its table gives; ABANDON BUILD clears the plan, opens the build and presses a withdrawn group
whatever its entry. -/
def Obligations.BuildSuspendedResumedAbandoned : Prop :=
  (∀ (h : CmdHead) (s : State), s.life = .ready → s.build.state = .building →
    Answers (.suspendBuild h []) s (fun t =>
      Answered h 8 .done s t ∧ t.build.state ≠ .building ∧ baseOf t = baseOf s
        ∧ (s.cfg.roles.erector = false →
            planOf t = { planOf s with state := .suspended, retry := none }
              ∧ t.records.current.build = s.records.current.build.map (fun b => { b with suspended := true })
              ∧ (withdrawn s = true → currentEntryState s = some .pending →
                  t.thrust.mode = if s.cfg.pressForce ≤ s.inputs.force then .hold else .pressing)
              ∧ (withdrawn s = true → currentEntryState s = some .claimed → t.thrust.mode = s.thrust.mode))))
  ∧ (∀ (h : CmdHead) (s : State), s.life = .ready → s.build.state ≠ .building →
    exec (.suspendBuild h []) s = .next (doneOnly h 8 s))
  ∧ (∀ (h : CmdHead) (s : State), s.life = .ready → s.build.state = .ringOpen →
    exec (.resumeBuild h []) s = .next (replyOnly h 9 .busy s))
  ∧ (∀ (h : CmdHead) (s : State), s.life = .ready → s.build.state = .building →
    exec (.resumeBuild h []) s = .next (doneOnly h 9 s))
  ∧ (∀ (h : CmdHead) (s : State), s.life = .ready → s.build.state = .suspended →
    currentEntryState s = some .claimed ∨ currentEntryState s = some .placed →
    exec (.resumeBuild h []) s = .next (replyOnly h 9 .busy s))
  ∧ (∀ (h : CmdHead) (s : State), s.life = .ready → s.build.state = .suspended →
    currentEntryState s = some .empty → exec (.resumeBuild h []) s = .next (replyOnly h 9 .planMismatch s))
  ∧ (∀ (h : CmdHead) (s : State), s.life = .ready → s.build.state = .suspended → currentEntryState s = some .pending →
    s.view.trips ≠ [] ∨ s.view.blind = true ∨ (erectorStation s = some s.own ∧ s.erector.feederMismatch = true) →
    exec (.resumeBuild h []) s = .next (replyOnly h 9 .notReady s))
  ∧ (∀ (h : CmdHead) (s : State), s.life = .ready → s.build.state = .suspended → currentEntryState s = some .pending →
    s.view.trips = [] → s.view.blind = false → erectorStation s ≠ some s.own ∨ s.erector.feederMismatch = false →
    Answers (.resumeBuild h []) s (fun t =>
      Answered h 9 .done s t ∧ baseOf t = baseOf s
        ∧ (SequenceSettled s → HoldsFollow s → t.build.state ≠ .ringOpen)
        ∧ (s.cfg.roles.erector = false →
            planOf t = { planOf s with state := .building, planMismatch := false, retry := none }
              ∧ (s.thrust.mode = .hold → ownCovered s = true → marginMet s = true →
                  t.thrust.mode = if s.inputs.retracted then .clear else .retracting))))
  ∧ (∀ (h : CmdHead) (s : State), s.life = .ready → s.build.state = .ringOpen →
    exec (.abandonBuild h []) s = .next (doneOnly h 10 s))
  ∧ (∀ (h : CmdHead) (s : State), s.life = .ready → s.build.state ≠ .ringOpen →
    Answers (.abandonBuild h []) s (fun t =>
      Answered h 10 .done s t ∧ baseOf t = baseOf s ∧ ringOf t = ringOf s
        ∧ planOf t =
            { planOf s with
              state := .ringOpen, planRing := t.build.planRing, entries := [], index := 0, retry := none,
              planMismatch := false }
        ∧ t.build.marginLow = false ∧ withdrawn t = false
        ∧ t.records.current.build = s.records.current.build.map (fun b => { b with abandoned := true })
        ∧ (withdrawn s = true → s.inputs.force < s.cfg.pressForce → t.thrust.mode = .pressing)))

/-- 03 R55, R53, R52, R54: SET MARGIN takes the clamped factor at once; a withdrawal whose entry is PENDING is undone
when the margin is breached under it, and a retry wait begins. -/
def Obligations.MarginSetAndWatched : Prop :=
  ∀ (h : CmdHead) (m : Nat) (s : State), m < 65536 → s.life = .ready →
    Answers (.setMargin h (beBytes 2 m)) s (fun t =>
      baseOf t = baseOf { s with build := { s.build with margin := max 1000 (min m 2500) } }
        ∧ (s.erector.seq ≠ .awaitingPress → ringOf t = ringOf s)
        ∧ Answered h 5 (clampedOr .done [(m, max 1000 (min m 2500))]) s t
        ∧ (s.cfg.roles.erector = false → withdrawn s = true → s.build.state ≠ .ringOpen →
            currentEntryState s = some .pending →
            marginMet { s with build := { s.build with margin := max 1000 (min m 2500) } } = false →
            t.thrust.mode = (if s.cfg.pressForce ≤ s.inputs.force then .hold else .pressing)
              ∧ t.build.retry = some 0)
        ∧ (s.cfg.roles.erector = false → withdrawn s = true → s.build.state ≠ .ringOpen →
            currentEntryState s = some .claimed →
            t.thrust.mode = s.thrust.mode
              ∧ t.build.marginLow =
                  !marginMet { s with build := { s.build with margin := max 1000 (min m 2500) } }))

/-- 03 R56, R58, R59: at a READY station a STEP of a taken source for the entry at the progress index of the own ring
changes the entry as the table of R58 gives; PLACED, and RELEASE in SUSPENDED, press a covered withdrawn group; one
below the index, of a lower ring or in OPEN is ignored; one of a higher ring or at or beyond the count raises PLAN
MISMATCH; one from a source that is not taken, or outside READY, changes nothing. R60: a SET without the KEY marker sets
the entry, moves the index on and presses; an EMPTY entry reached raises PLAN MISMATCH and suspends a BUILDING build
(R46). R57: one above the index sets every entry below its own first, presses, and flags CAUGHT UP, a SET then setting its
own too, and of the KEY closing the ring. 04 R73: at an erector station one that moves the index past the entry being
worked puts a sequence in AWAITING CLEAR or PLACING in STANDBY, enable off, with no STEP sent; that it stays in STANDBY
for the event at a PENDING entry (model, log 26), and that a SET of the KEY, which closes the ring too, calls for no
RELEASE (model, log 17), are the model's reading of R73. -/
def Obligations.StepNoticesApplied : Prop :=
  (∀ (src : Nat) (a : StepAction) (e : PlanEntry) (s : State), s.life = .ready → src < s.cfg.n → src ≠ s.own →
    s.cfg.roles.erector = false → s.build.state ≠ .ringOpen → s.build.entries[s.build.index]? = some e →
    a ≠ .set → e.state = .pending ∨ e.state = .claimed ∨ e.state = .placed →
    Answers (.stepArrival src a s.records.ring s.build.index) s (fun t =>
      t.build.entries =
          s.build.entries.modify s.build.index (fun p =>
            { p with
              state :=
                if e.state = .placed ∨ a = .placed then .placed
                else if a = .claim then .claimed
                else .pending })
        ∧ t.build.index = s.build.index ∧ t.build.state = s.build.state ∧ baseOf t = baseOf s ∧ ringOf t = ringOf s
        ∧ (a = .claim → withdrawn s = true → t.thrust.mode = s.thrust.mode)
        ∧ (a = .placed → e.cover.contains s.own = true → withdrawn s = true →
            t.thrust.mode = if s.cfg.pressForce ≤ s.inputs.force then .hold else .pressing)
        ∧ (a = .release → e.state ≠ .placed → s.build.state = .suspended → e.cover.contains s.own = true →
            withdrawn s = true →
            t.thrust.mode = if s.cfg.pressForce ≤ s.inputs.force then .hold else .pressing)))
  ∧ (∀ (src : Nat) (a : StepAction) (ring index : Nat) (s : State), s.life = .ready → src < s.cfg.n → src ≠ s.own →
    s.build.state = .ringOpen → Answers (.stepArrival src a ring index) s (fun t => FrameOf s t ∧ planOf t = planOf s))
  ∧ (∀ (src : Nat) (a : StepAction) (ring index : Nat) (s : State), s.life = .ready → src < s.cfg.n → src ≠ s.own →
    s.cfg.roles.erector = false → s.build.state ≠ .ringOpen →
    ring < s.records.ring
      ∨ (ring = s.records.ring ∧ index < s.build.entries.length ∧ index < s.build.index) →
    Answers (.stepArrival src a ring index) s (fun t => planOf t = planOf s ∧ baseOf t = baseOf s ∧ ringOf t = ringOf s))
  ∧ (∀ (src : Nat) (a : StepAction) (ring index : Nat) (s : State), s.life = .ready → src < s.cfg.n → src ≠ s.own →
    s.cfg.roles.erector = false → s.build.state ≠ .ringOpen →
    s.records.ring < ring ∨ (ring = s.records.ring ∧ s.build.entries.length ≤ index) →
    Answers (.stepArrival src a ring index) s (fun t =>
      planOf t = { planOf s with planMismatch := true } ∧ baseOf t = baseOf s ∧ ringOf t = ringOf s))
  ∧ (∀ (src : Nat) (e : PlanEntry) (s : State), s.life = .ready → src < s.cfg.n → src ≠ s.own →
    s.cfg.roles.erector = false → s.build.state ≠ .ringOpen → s.build.entries[s.build.index]? = some e →
    e.key = false →
    Answers (.stepArrival src .set s.records.ring s.build.index) s (fun t =>
      t.build.index = s.build.index + 1 ∧ t.build.retry = none
        ∧ t.build.entries =
            (s.build.entries.take (s.build.index + 1)).map (fun p => { p with state := .set })
              ++ s.build.entries.drop (s.build.index + 1)
        ∧ (let reached := (s.build.entries[s.build.index + 1]?).map PlanEntry.state
           t.build.planMismatch = (s.build.planMismatch || decide (reached = some .empty))
             ∧ t.build.state =
                 if s.build.state = .building ∧ reached = some .empty then .suspended else s.build.state)
        ∧ (withdrawn s = true → s.inputs.force < s.cfg.pressForce → t.thrust.mode = .pressing)
        ∧ baseOf t = baseOf s ∧ ringOf t = ringOf s))
  ∧ (∀ (src index : Nat) (a : StepAction) (e : PlanEntry) (s : State), s.life = .ready → src < s.cfg.n → src ≠ s.own →
    s.cfg.roles.erector = false → s.build.state ≠ .ringOpen → s.build.index < index →
    s.build.entries[index]? = some e → a ≠ .set →
    Answers (.stepArrival src a s.records.ring index) s (fun t =>
      t.build.index = index ∧ t.build.retry = none
        ∧ t.build.entries =
            (s.build.entries.take index).map (fun p => { p with state := .set })
              ++ (s.build.entries.drop index).modify 0 (fun p =>
                  { p with
                    state :=
                      if e.state = .empty ∨ e.state = .set then e.state
                      else if e.state = .placed ∨ a = .placed then .placed
                      else if a = .claim then .claimed
                      else .pending })
        ∧ t.build.planMismatch = (s.build.planMismatch || decide (e.state = .empty))
        ∧ t.build.state =
            (if s.build.state = .building ∧ e.state = .empty then .suspended else s.build.state)
        ∧ t.records.current.build.map BuildPart.caughtUp = s.records.current.build.map (fun _ => true)
        ∧ (withdrawn s = true → s.inputs.force < s.cfg.pressForce → t.thrust.mode = .pressing)
        ∧ baseOf t = baseOf s ∧ ringOf t = ringOf s))
  ∧ (∀ (src index : Nat) (e : PlanEntry) (s : State), s.life = .ready → src < s.cfg.n → src ≠ s.own →
    s.cfg.roles.erector = false → s.build.state ≠ .ringOpen → s.build.index < index →
    s.build.entries[index]? = some e → e.key = false →
    Answers (.stepArrival src .set s.records.ring index) s (fun t =>
      t.build.index = index + 1 ∧ t.build.retry = none
        ∧ t.build.entries =
            (s.build.entries.take (index + 1)).map (fun p => { p with state := .set })
              ++ s.build.entries.drop (index + 1)
        ∧ (let empty := e.state = .empty ∨ (s.build.entries[index + 1]?).map PlanEntry.state = some .empty
           t.build.planMismatch = (s.build.planMismatch || decide empty)
             ∧ t.build.state = if s.build.state = .building ∧ empty then .suspended else s.build.state)
        ∧ t.records.current.build.map BuildPart.caughtUp = s.records.current.build.map (fun _ => true)
        ∧ (withdrawn s = true → s.inputs.force < s.cfg.pressForce → t.thrust.mode = .pressing)
        ∧ baseOf t = baseOf s ∧ ringOf t = ringOf s))
  ∧ (∀ (src index : Nat) (e : PlanEntry) (s : State), s.life = .ready → src < s.cfg.n → src ≠ s.own →
    s.build.state ≠ .ringOpen → s.build.index < index → s.build.entries[index]? = some e → e.key = true →
    Answers (.stepArrival src .set s.records.ring index) s (fun t =>
      t.records.ring = (if s.records.ring = 65535 then 65535 else s.records.ring + 1)
        ∧ t.records.current.cause = .close ∧ t.build.state = .ringOpen ∧ t.build.entries = [] ∧ t.build.index = 0
        ∧ (s.records.ring ≠ 65535 →
            (t.records.history.getLast?).bind (fun r => r.build.map BuildPart.caughtUp)
                = s.records.current.build.map (fun _ => true)
              ∧ (t.records.history.getLast?).bind (fun r => r.build.map BuildPart.entriesSet)
                  = s.records.current.build.map (fun _ =>
                      index + 1 + ((s.build.entries.drop (index + 1)).filter (fun p => p.state = .set)).length))))
  ∧ (∀ (src index : Nat) (a : StepAction) (e : PlanEntry) (w : Working) (s : State), s.life = .ready → src < s.cfg.n →
    src ≠ s.own → s.cfg.roles.erector = true → s.build.state = .building →
    s.erector.seq = .awaitingClear ∨ s.erector.seq = .placing → atWork s w → s.build.entries[index]? = some e →
    (s.build.index = index ∧ a = .set) ∨ s.build.index < index →
    Answers (.stepArrival src a s.records.ring index) s (fun t =>
      t.erector = { s.erector with seq := .standby, feederEmpty := false, feederMismatch := t.erector.feederMismatch }
        ∧ t.out.erectorEnable = false
        ∧ ∀ x ∈ t.bus.queue, x ∈ s.bus.queue ∨ noticeKind x.notice = 2))
  ∧ (∀ (src : Nat) (a : StepAction) (ring index : Nat) (s : State), src ≠ s.own → s.life ≠ .ready ∨ s.cfg.n ≤ src →
    exec (.stepArrival src a ring index) s = .next s)

/-- 03 R60, R61; 09 R144, R137, R143; 08 R125; 02 R23; 01 R11; 05 R91: the SET of the KEY closes the ring: the record is
stored as the newest of at most 16, with its final advance, spoil account and grout totals (R141, R145) and the count of
entries SET, the next ring opens with cause CLOSE, the ring's figures return to 0, the pending settings become active,
the plan is cleared and the build is OPEN; from ring 65,535 the ring number stays and the history is emptied. -/
def Obligations.KeySetClosesRing : Prop :=
  ∀ (src : Nat) (e : PlanEntry) (s : State), s.life = .ready → src < s.cfg.n → src ≠ s.own →
    s.build.state ≠ .ringOpen → s.build.entries[s.build.index]? = some e → e.key = true →
    Answers (.stepArrival src .set s.records.ring s.build.index) s (fun t =>
      t.records.ring = (if s.records.ring = 65535 then 65535 else s.records.ring + 1)
        ∧ t.records.current.ring = t.records.ring ∧ t.records.current.cause = .close
        ∧ (s.records.ring = 65535 → t.records.history = [])
        ∧ (s.records.ring ≠ 65535 →
            StoredAtClose s t
              ∧ (t.records.history.getLast?).map Record.machineAdvance = some (max s.view.lring (ringMean s))
              ∧ (t.records.history.getLast?).bind (fun r => r.build.map BuildPart.entriesSet)
                  = s.records.current.build.map (fun _ =>
                      s.build.index + 1
                        + ((s.build.entries.drop (s.build.index + 1)).filter (fun p => p.state = .set)).length))
        ∧ t.thrust.advance = 0 ∧ t.view.lring = 0 ∧ t.drive.accumulator = 0 ∧ t.drive.peakTorque = 0
        ∧ t.screw.sample = 0 ∧ t.grout.strokes = 0 ∧ t.grout.volume = 0 ∧ t.grout.sample = 0
        ∧ t.grout.active = s.grout.waiting.getD s.grout.active ∧ t.grout.waiting = none
        ∧ t.grout.tail =
            (if s.grout.active.closes < s.grout.active.opens ∧ 0 < s.grout.active.closes then
               some s.grout.active.closes
             else none)
        ∧ t.records.limits = s.records.waitingLimits.getD s.records.limits ∧ t.records.waitingLimits = none
        ∧ t.train.reasons.isOver = false
        ∧ t.build.state = .ringOpen ∧ t.build.entries = [] ∧ t.build.index = 0 ∧ t.build.retry = none
        ∧ t.build.planMismatch = false ∧ t.build.marginLow = false ∧ withdrawn t = false ∧ baseOf t = baseOf s)

/-- 03 R62; 09 R144, R145; 08 R123; 12 R169: a READY station that hears a higher ring closes its own and adopts it,
storing the record with its final figures, flagging CAUGHT UP in a build and pressing a withdrawn group; a line that the
event leaves ARMED has not injected in it. From ring 65,535 a station in a build adopts when the erector station in view
is heard to have closed that ring, and the history is emptied. A LISTENING station opens the higher ring without storing
its record and keeps its history. At a station without the ERECTOR role a ring number equal to or below the own closes
nothing, ring 65,535 apart. -/
def Obligations.HigherRingAdopted : Prop :=
  (∀ (src : Nat) (body : StateBody) (s : State), s.life = .ready → src < 8 → src < s.cfg.n → src ≠ s.own →
    s.view.peers.length = 8 → s.records.ring < body.ring → s.records.ring < 65535 →
    Answers (.stateArrival src body) s (fun t =>
      t.records.ring = body.ring ∧ t.records.current.ring = body.ring ∧ t.records.current.cause = .adopted
        ∧ StoredAtClose s t
        ∧ (s.grout.line = .armed → t.grout.line = .armed → t.grout.used = s.grout.used)
        ∧ (s.build.state ≠ .ringOpen →
            (t.records.history.getLast?).bind (fun r => r.build.map BuildPart.caughtUp)
              = s.records.current.build.map (fun _ => true))
        ∧ t.thrust.advance = 0 ∧ t.view.lring = 0 ∧ t.drive.accumulator = 0 ∧ t.grout.strokes = 0 ∧ t.grout.volume = 0
        ∧ t.grout.active = s.grout.waiting.getD s.grout.active ∧ t.grout.waiting = none
        ∧ t.records.limits = s.records.waitingLimits.getD s.records.limits ∧ t.records.waitingLimits = none
        ∧ t.build.state = .ringOpen ∧ t.build.entries = [] ∧ t.build.index = 0
        ∧ (s.build.state ≠ .ringOpen → withdrawn t = false)))
  ∧ (∀ (src : Nat) (body : StateBody) (x : Heard) (s : State), s.life = .ready → src < 8 → src < s.cfg.n → src ≠ s.own →
    s.view.peers.length = 8 → s.records.ring = 65535 → s.build.state ≠ .ringOpen → body.ring = 65535 →
    body.build = .ringOpen → (entryOf s src).held = some x → x.body.ring = 65535 → x.body.build ≠ .ringOpen →
    body.roles.erector = true → (s.cfg.roles.erector = true → src < s.own) →
    (freshPeers s).all (fun p => !p.2.roles.erector || decide (src ≤ p.1)) = true →
    Answers (.stateArrival src body) s (fun t =>
      t.records.ring = 65535 ∧ t.records.current.ring = 65535 ∧ t.records.current.cause = .adopted
        ∧ t.records.history = [] ∧ t.thrust.advance = 0 ∧ t.view.lring = 0 ∧ t.drive.accumulator = 0
        ∧ t.grout.strokes = 0 ∧ t.grout.volume = 0 ∧ t.grout.active = s.grout.waiting.getD s.grout.active
        ∧ t.grout.waiting = none ∧ t.records.limits = s.records.waitingLimits.getD s.records.limits
        ∧ t.records.waitingLimits = none ∧ t.build.state = .ringOpen ∧ t.build.entries = [] ∧ t.build.index = 0
        ∧ withdrawn t = false))
  ∧ (∀ (src : Nat) (body : StateBody) (s : State), s.life = .listening → src < 8 → src < s.cfg.n → src ≠ s.own →
    s.records.ring < body.ring →
    Answers (.stateArrival src body) s (fun t =>
      t.records.ring = body.ring ∧ t.records.current.ring = body.ring ∧ t.records.current.cause = .adopted
        ∧ t.records.history = s.records.history ∧ t.thrust.advance = 0 ∧ t.view.lring = 0 ∧ t.drive.accumulator = 0
        ∧ t.grout.strokes = 0 ∧ t.grout.volume = 0 ∧ t.grout.tail = none))
  ∧ (∀ (src : Nat) (body : StateBody) (s : State), s.running = true → src < 8 → src < s.cfg.n → src ≠ s.own →
    body.ring ≤ s.records.ring → s.records.ring < 65535 → s.cfg.roles.erector = false →
    Answers (.stateArrival src body) s (fun t => ringOf t = ringOf s))

/-! ### Erector unit -/

/-- 04 R67: DISCARD PIECE is BUSY in PLACING, answers an empty queue without naming a piece (the two data bytes of that
answer: model, log 12), and otherwise removes the head and names it. 04 R66: a piece-in strobe appends a record with the
arrival count, or raises FEEDER OVERFULL at 8 records. 04 R71: the rising edge of the seated input in PLACING removes
the head and issues STEP PLACED. -/
def Obligations.FeederQueueAndSeating : Prop :=
  (∀ (h : CmdHead) (s : State), s.life = .ready → s.cfg.roles.erector = true → s.erector.seq = .placing →
    exec (.discardPiece h []) s = .next (replyOnly h 11 .busy s))
  ∧ (∀ (h : CmdHead) (s : State), s.life = .ready → s.cfg.roles.erector = true → s.erector.seq ≠ .placing →
    s.erector.queue = [] →
    Answers (.discardPiece h []) s (fun t =>
      { t with bus := s.bus } = s ∧ Sent h 11 .done [7, 255] t))
  ∧ (∀ (h : CmdHead) (p : Piece) (ps : List Piece) (s : State), s.life = .ready → s.cfg.roles.erector = true →
    s.erector.seq ≠ .placing → s.erector.queue = p :: ps → p.piece < 8 →
    Answers (.discardPiece h []) s (fun t =>
      t.erector.queue = ps
        ∧ baseOf t = { baseOf s with feeder := ps, overfull := s.erector.feederOverfull && !ps.isEmpty }
        ∧ Sent h 11 .done [byteOf (128 + (if p.key then 64 else 0) + p.piece), byteOf p.arrival] t))
  ∧ (∀ (piece : BitVec 3) (key : Bool) (s : State), s.running = true → s.cfg.roles.erector = true →
    s.erector.queue.length < 8 →
    Answers (.pieceInStrobe piece key) s (fun t =>
      baseOf t =
        { baseOf s with
          feeder := s.erector.queue ++ [{ piece := piece.toNat, key := key, arrival := s.erector.arrival }]
          arrival := (s.erector.arrival + 1) % 256 }))
  ∧ (∀ (piece : BitVec 3) (key : Bool) (s : State), s.running = true → s.cfg.roles.erector = true →
    8 ≤ s.erector.queue.length →
    Answers (.pieceInStrobe piece key) s (fun t => baseOf t = { baseOf s with overfull := true }))
  ∧ (∀ (piece : BitVec 3) (key : Bool) (s : State), s.running = false ∨ s.cfg.roles.erector = false →
    exec (.pieceInStrobe piece key) s = .next s)
  ∧ (∀ (w : Working) (s : State), s.running = true → s.cfg.roles.erector = true → s.inputs.seated = false →
    s.erector.seq = .placing → s.erector.working = some w →
    Answers (.seatedInput true) s (fun t =>
      baseOf t =
          { baseOf s with
            inputs := { s.inputs with seated := true }
            feeder := s.erector.queue.drop 1
            overfull := s.erector.feederOverfull && !(s.erector.queue.drop 1).isEmpty }
        ∧ (s.bus.queue.length < 6 → ∃ x ∈ t.bus.queue, x.notice = .step .placed w.ring w.index)))
  ∧ (∀ (level : Bool) (s : State), level = false ∨ s.inputs.seated = true ∨ s.erector.seq ≠ .placing →
    Answers (.seatedInput level) s (fun t => FrameOf { s with inputs := { s.inputs with seated := level } } t))

/-! ### Drive unit -/

/-- 05 R81, R82, R85: START CUTTERHEAD from OFF with the start conditions starts the drive at the lesser of the measured
speed and 450, and from STOPPING too, where a command still above 0 is kept; without them it is NOT READY; with speed 0
a drive in OFF or STOPPING changes nothing; at a STALLED drive, or against the stored direction while turning, BUSY; at
a turning drive it sets the target, and with speed 0 stops it. STOP CUTTERHEAD stops a turning drive with its command
kept. -/
def Obligations.CutterheadStartedAndStopped : Prop :=
  (∀ (h : CmdHead) (v : Nat) (ccw : Bool) (s : State), s.life = .ready → s.cfg.roles.drive = true → 0 < v → v < 65536 →
    s.drive.state = .off → s.drive.direction = (if ccw then .ccw else .cw) ∨ s.inputs.speed < 5 →
    s.build.state = .ringOpen → peerBuilding s = false → (spoilStation s).isSome = true → s.view.trips = [] →
    s.view.blind = false →
    Answers (.startCutterhead h (beBytes 2 v ++ beBytes 1 (if ccw then 1 else 0))) s (fun t =>
      t.drive =
          { s.drive with
            state := .starting, target := min v 450, direction := if ccw then .ccw else .cw, trim := 0
            command := min s.inputs.speed 450 }
        ∧ t.out.driveEnable = true ∧ FrameOf { s with drive := t.drive } t
        ∧ Answered h 12 (clampedOr .done [(v, min v 450)]) s t))
  ∧ (∀ (h : CmdHead) (v : Nat) (s : State), s.life = .ready → s.cfg.roles.drive = true → 0 < v → v < 65536 →
    s.drive.state = .stopping → s.build.state = .ringOpen → peerBuilding s = false → (spoilStation s).isSome = true →
    s.view.trips = [] → s.view.blind = false →
    Answers (.startCutterhead h (beBytes 2 v ++ beBytes 1 (if s.drive.direction = .cw then 0 else 1))) s (fun t =>
      t.drive =
          { s.drive with
            state := .starting, target := min v 450, trim := 0
            command := if s.drive.command = 0 then min s.inputs.speed 450 else s.drive.command }
        ∧ t.out.driveEnable = true ∧ FrameOf { s with drive := t.drive } t
        ∧ Answered h 12 (clampedOr .done [(v, min v 450)]) s t))
  ∧ (∀ (h : CmdHead) (ccw : Bool) (s : State), s.life = .ready → s.cfg.roles.drive = true →
    (s.drive.state = .off ∧ s.inputs.speed < 5)
      ∨ ((s.drive.state = .off ∨ s.drive.state = .stopping) ∧ s.drive.direction = (if ccw then .ccw else .cw)) →
    exec (.startCutterhead h (beBytes 2 0 ++ beBytes 1 (if ccw then 1 else 0))) s = .next (doneOnly h 12 s))
  ∧ (∀ (h : CmdHead) (v : Nat) (ccw : Bool) (s : State), s.life = .ready → s.cfg.roles.drive = true → 0 < v → v < 65536 →
    (s.drive.state = .off ∧ s.inputs.speed < 5)
      ∨ ((s.drive.state = .off ∨ s.drive.state = .stopping) ∧ s.drive.direction = (if ccw then .ccw else .cw)) →
    s.build.state ≠ .ringOpen ∨ peerBuilding s = true ∨ spoilStation s = none ∨ s.view.trips ≠ []
      ∨ s.view.blind = true →
    exec (.startCutterhead h (beBytes 2 v ++ beBytes 1 (if ccw then 1 else 0))) s = .next (replyOnly h 12 .notReady s))
  ∧ (∀ (h : CmdHead) (v : Nat) (ccw : Bool) (s : State), s.life = .ready → s.cfg.roles.drive = true → v < 65536 →
    s.drive.state = .stalled
      ∨ (s.drive.direction ≠ (if ccw then .ccw else .cw)
          ∧ (s.drive.state = .starting ∨ s.drive.state = .running ∨ s.drive.state = .stopping
              ∨ (s.drive.state = .off ∧ 5 ≤ s.inputs.speed))) →
    exec (.startCutterhead h (beBytes 2 v ++ beBytes 1 (if ccw then 1 else 0))) s = .next (replyOnly h 12 .busy s))
  ∧ (∀ (h : CmdHead) (v : Nat) (s : State), s.life = .ready → s.cfg.roles.drive = true → v < 65536 →
    s.drive.state = .starting ∨ s.drive.state = .running →
    Answers (.startCutterhead h (beBytes 2 v ++ beBytes 1 (if s.drive.direction = .cw then 0 else 1))) s (fun t =>
      FrameOf
          { s with
            drive :=
              { s.drive with
                target := min v 450
                state := if v = 0 then .stopping else s.drive.state
                trim := if v = 0 then 0 else s.drive.trim } } t
        ∧ (v = 0 → t.drive.state = .stopping ∧ t.drive.trim = 0)
        ∧ Answered h 12 (clampedOr .done [(v, min v 450)]) s t))
  ∧ (∀ (h : CmdHead) (s : State), s.life = .ready → s.cfg.roles.drive = true →
    s.drive.state = .starting ∨ s.drive.state = .running →
    Answers (.stopCutterhead h []) s (fun t =>
      t.drive.state = .stopping ∧ t.drive.trim = 0 ∧ t.thrust.mode ≠ .advance
        ∧ FrameOf { s with drive := { s.drive with state := .stopping, trim := 0 } } t ∧ Answered h 13 .done s t))
  ∧ (∀ (h : CmdHead) (s : State), s.life = .ready → s.cfg.roles.drive = true → s.drive.state ≠ .starting →
    s.drive.state ≠ .running → exec (.stopCutterhead h []) s = .next (doneOnly h 13 s))

/-- 05 R90, R87: SET DRIVE LIMITS takes the three values, clamped; a running stall timer returns to idle when the last
torque lies below the new level, and expires at once when the time since its start reaches the new stall time. -/
def Obligations.DriveLimitsSetAndTimerJudged : Prop :=
  (∀ (h : CmdHead) (a b c : Nat) (s : State), a < 65536 → b < 65536 → c < 256 → s.life = .ready →
    s.cfg.roles.drive = true →
    s.drive.stallStart = none ∨ s.inputs.torque < max 1100 (min b 1800)
      ∨ (∀ t0, s.drive.stallStart = some t0 → s.clock.now < t0 + max 1 (min c 10) * 1000) →
    Answers (.setDriveLimits h (beBytes 2 a ++ beBytes 2 b ++ beBytes 1 c)) s (fun t =>
      FrameOf
          { s with
            drive :=
              { s.drive with
                ramp := max 10 (min a 500)
                stallLevel := max 1100 (min b 1800)
                stallTime := max 1 (min c 10)
                stallStart := if s.inputs.torque < max 1100 (min b 1800) then none else s.drive.stallStart } } t
        ∧ Answered h 14
            (clampedOr .done
              [(a, max 10 (min a 500)), (b, max 1100 (min b 1800)), (c, max 1 (min c 10))]) s t))
  ∧ (∀ (h : CmdHead) (a b c t0 : Nat) (s : State), a < 65536 → b < 65536 → c < 256 → s.life = .ready →
    s.cfg.roles.drive = true → s.drive.stallStart = some t0 → max 1100 (min b 1800) ≤ s.inputs.torque →
    t0 + max 1 (min c 10) * 1000 ≤ s.clock.now →
    Answers (.setDriveLimits h (beBytes 2 a ++ beBytes 2 b ++ beBytes 1 c)) s (fun t =>
      t.drive.state = .stalled ∧ t.drive.command = 0 ∧ t.drive.stallStart = none
        ∧ (s.own, TripCause.stall) ∈ t.view.trips ∧ t.drive.ramp = max 10 (min a 500)
        ∧ t.drive.stallLevel = max 1100 (min b 1800) ∧ t.drive.stallTime = max 1 (min c 10)))

/-- 05 R83, R84, R86, R91: at a drive interval the trim of a RUNNING drive is computed from its torque and the mean, the
command moves one step toward the aim, or toward 0 by the ordinary or fast stop step, the revolutions take the measured
speed. The clock stands at least at the moment the expiry was due, and the next is due one interval later (model, log
3). -/
def Obligations.DriveIntervalRampsAndStops : Prop :=
  (∀ (d : Nat) (s : State), s.running = true → s.clock.driveDue = some d →
    s.drive.state = .starting ∨ s.drive.state = .running → s.build.state = .ringOpen → peerBuilding s = false →
    (spoilStation s).isSome = true → s.view.trips = [] → s.view.blind = false → s.drive.accumulator < 599999400 →
    Answers .driveInterval s (fun t =>
      let trim : Int :=
        if s.drive.state = .running then
          max (-(roundInt s.drive.target 20))
            (min (-(roundInt (((s.inputs.torque : Int) - ((meanTorque s).getD 0 : Nat)) * s.drive.target) 2000))
              (roundInt s.drive.target 20))
        else s.drive.trim
      let aim : Int := max 0 (min ((s.drive.target : Int) + trim) 450)
      let step : Int := (roundNat s.drive.ramp 10 : Nat)
      let command : Int :=
        if (s.drive.command - aim).natAbs ≤ step then aim
        else if (s.drive.command : Int) < aim then s.drive.command + step
        else s.drive.command - step
      t.drive.trim = trim ∧ (t.drive.command : Int) = command
        ∧ t.drive.state =
            (if s.drive.state = .starting ∧ command = s.drive.target then .running else s.drive.state)
        ∧ t.drive.accumulator = s.drive.accumulator + s.inputs.speed
        ∧ t.clock = { s.clock with now := max s.clock.now d, driveDue := some (d + 100) }
        ∧ FrameOf { s with drive := t.drive, clock := t.clock } t))
  ∧ (∀ (d : Nat) (s : State), s.running = true → s.clock.driveDue = some d → s.drive.state = .stopping →
    s.erector.seq ≠ .awaitingPress →
    Answers .driveInterval s (fun t =>
      t.drive.command =
          s.drive.command - (if s.view.trips ≠ [] ∨ s.view.blind = true then s.drive.ramp else roundNat s.drive.ramp 10)
        ∧ t.drive.state = (if t.drive.command = 0 ∧ s.inputs.speed < 5 then .off else .stopping)
        ∧ t.drive.accumulator =
            (if s.drive.accumulator / 600 < 999999 then s.drive.accumulator + s.inputs.speed else s.drive.accumulator)
        ∧ t.clock = { s.clock with now := max s.clock.now d, driveDue := some (d + 100) }
        ∧ FrameOf { s with drive := t.drive, clock := t.clock } t))
  ∧ (∀ (d : Nat) (s : State), s.running = true → s.clock.driveDue = some d →
    s.drive.state = .absent ∨ s.drive.state = .off ∨ s.drive.state = .stalled →
    Answers .driveInterval s (fun t =>
      FrameOf
        { s with
          clock := { s.clock with now := max s.clock.now d, driveDue := some (d + 100) }
          drive :=
            { s.drive with
              accumulator :=
                if s.drive.state ≠ .absent ∧ s.drive.accumulator / 600 < 999999 then
                  s.drive.accumulator + s.inputs.speed
                else s.drive.accumulator } } t))

/-- 05 R87, R88, R15: a torque at or above the stall level starts the timer of a watched drive, one below makes it idle;
the timer's expiry puts the drive in STALLED, command 0, enable off, the pair in the trip memory and a TRIP notice
queued, with the clock at least at that moment (model, log 3). R79, R86: a speed below 5 ends a stop whose command is 0.
That an expiry of an idle stall timer changes nothing (model, log 3, log 5), and that a reading at an ABSENT drive, or
outside LISTENING and READY, is recorded and nothing else (model, log 5), are the model's choices. -/
def Obligations.TorqueSpeedAndStall : Prop :=
  (∀ (r : Reading) (s : State), s.running = true → s.drive.state ≠ .absent → readingFits 2000 r = true →
    Answers (.torqueReading r) s (fun t =>
      FrameOf
        { s with
          inputs := { s.inputs with torque := r.getD 2000 }
          drive :=
            if s.drive.state = .starting ∨ s.drive.state = .running ∨ s.drive.state = .stopping then
              { s.drive with
                peakTorque := max s.drive.peakTorque (r.getD 2000)
                stallStart :=
                  if r.getD 2000 < s.drive.stallLevel then none
                  else some (s.drive.stallStart.getD s.clock.now) }
            else s.drive } t))
  ∧ (∀ (t0 : Nat) (s : State), s.running = true → s.drive.stallStart = some t0 →
    Answers .stallTimerExpiry s (fun t =>
      t.drive.state = .stalled ∧ t.drive.command = 0 ∧ t.drive.trim = 0 ∧ t.drive.stallStart = none
        ∧ t.out.driveEnable = false ∧ (s.own, TripCause.stall) ∈ t.view.trips ∧ t.thrust.mode ≠ .advance
        ∧ (s.bus.queue.length < 6 → ∃ x ∈ t.bus.queue, x.notice = .trip .stall)
        ∧ baseOf t =
            { baseOf s with
              command := 0, stallStart := none
              clock := { s.clock with now := max s.clock.now (t0 + s.drive.stallTime * 1000) }
              view := { s.view with trips := withPair (s.own, .stall) s.view.trips, lring := 0 } }))
  ∧ (∀ (s : State), s.drive.stallStart = none → exec .stallTimerExpiry s = .next s)
  ∧ (∀ (r : Reading) (s : State), s.running = true → s.drive.state ≠ .absent → readingFits 600 r = true →
    Answers (.measuredSpeedReading r) s (fun t =>
      FrameOf
          { s with
            inputs := { s.inputs with speed := r.getD 0 }
            drive :=
              if s.drive.state = .stopping ∧ s.drive.command = 0 ∧ r.getD 0 < 5 then
                { s.drive with state := .off, trim := 0, stallStart := none }
              else s.drive } t
        ∧ t.thrust.vlim = speedLimit t))
  ∧ (∀ (r : Reading) (s : State), s.running = false ∨ s.drive.state = .absent → readingFits 600 r = true →
    exec (.measuredSpeedReading r) s = .next { s with inputs := { s.inputs with speed := r.getD 0 } }
      ∧ exec (.torqueReading r) s = .next { s with inputs := { s.inputs with torque := r.getD 2000 } })

/-! ### Screw unit and face pressure -/

/-- 06 R105, R104: SET FACE PRESSURE takes the three values, clamped, and NO TARGET leaves in the same event. 01 R7: a
chamber reading replaces the own cell's, one outside the range is NO READING, and PRESSURE BLIND follows P_c (06 R101).
-/
def Obligations.FacePressureSetAndRead : Prop :=
  (∀ (h : CmdHead) (p b g : Nat) (s : State), p < 65536 → b < 256 → g < 256 → s.life = .ready →
    s.cfg.roles.screw = true →
    Answers (.setFacePressure h (beBytes 2 p ++ beBytes 1 b ++ beBytes 1 g)) s (fun t =>
      FrameOf
          { s with screw := { s.screw with target := some (min p 600), band := max 5 (min b 100), gain := min g 100 } } t
        ∧ t.train.reasons.noTarget = false
        ∧ Answered h 15 (clampedOr .done [(p, min p 600), (b, max 5 (min b 100)), (g, min g 100)]) s t))
  ∧ (∀ (r : Reading) (s : State), s.running = true → readingFits 1000 r = true →
    Answers (.chamberPressureReading r) s (fun t =>
      baseOf t = { baseOf s with inputs := { s.inputs with chamber := r } }
        ∧ (s.erector.seq ≠ .awaitingPress → ringOf t = ringOf s)
        ∧ (s.cfg.roles.screw = true → t.train.reasons.pressureBlind = (controlPressure t).isNone)
        ∧ (s.cfg.roles.erector = false → withdrawn s = true → s.build.state ≠ .ringOpen →
            currentEntryState s = some .pending → marginMet { s with inputs := { s.inputs with chamber := r } } = false →
            t.thrust.mode = (if s.cfg.pressForce ≤ s.inputs.force then .hold else .pressing)
              ∧ t.build.retry = some 0)))

/-- 06 R96 to R98, R100, 01 R11, 07 R116: at a control second L_ring becomes the mean where that is greater, the advance
sample becomes L_ring, the FILLING car takes the flag OVER when OVER joins, PRESSURE BAND is judged, and the command of
a screw that stays RUNNING is the raw command slewed by at most 5 and clamped to 0 to n_max. R102: the belt-silence
timer starts when that command rises from 0, returns to idle when it is 0, and otherwise runs on. The clock stands at
least at the moment the expiry was due, and the next is due one second later (model, log 3). -/
def Obligations.ControlSecondSetsScrew : Prop :=
  ∀ (d : Nat) (s : State), s.running = true → s.clock.controlDue = some d → s.erector.seq ≠ .awaitingPress →
    Answers .controlSecond s (fun t =>
      t.view.lring = max s.view.lring (ringMean s)
        ∧ t.clock = { s.clock with now := max s.clock.now d, controlDue := some (d + 1000) }
        ∧ t.thrust.vlim = speedLimit t
        ∧ baseOf t =
            { baseOf s with
              clock := t.clock, pressureBand := t.screw.pressureBand
              cars :=
                if t.train.reasons.isOver && !s.train.reasons.isOver then
                  s.train.cars.map (fun c => if c.state = .filling then { c with flagOver := true } else c)
                else s.train.cars }
        ∧ (s.cfg.roles.screw = true →
            t.screw.sample = max s.view.lring (ringMean s)
              ∧ t.screw.pressureBand =
                  (match s.screw.target, controlPressure s with
                   | some target, some pc =>
                     decide (s.screw.state ≠ .stopped)
                       && !(decide (target ≤ pc + s.screw.band) && decide (pc ≤ target + s.screw.band))
                   | _, _ => false)
              ∧ ∀ target pc : Nat, s.screw.target = some target → controlPressure s = some pc →
                  s.screw.state = .running → t.screw.state = .running →
                  let ff : Int :=
                    (roundNat (s.cfg.af * (max s.view.lring (ringMean s) - s.screw.sample) * 3) (5 * s.cfg.vrev) : Nat)
                  let raw : Int := ff + roundInt ((s.screw.gain : Int) * ((pc : Int) - target)) 10
                  let slew : Int :=
                    if (s.screw.command : Int) + 5 < raw then s.screw.command + 5
                    else if raw < (s.screw.command : Int) - 5 then s.screw.command - 5
                    else raw
                  (t.screw.command : Int) = max 0 (min slew s.cfg.nmax)
                    ∧ t.screw.beltStart =
                        (if t.screw.command = 0 then none
                         else if s.screw.command = 0 then some t.clock.now
                         else s.screw.beltStart)))

/-- 09 R138, R141, R142, 07 R116; 08 R127, R128: at a control second the record's seconds count, the spoil account is
computed and judged, the pump rate is computed from the own advance and the grout-ready count, and LINE SATURATED is
judged. With the control timer idle the row changes nothing (model, log 3, log 5). -/
def Obligations.ControlSecondKeepsAccounts : Prop :=
  (∀ (d : Nat) (s : State), s.running = true → s.clock.controlDue = some d → s.erector.seq ≠ .awaitingPress →
    s.records.current.advanceSeconds ≤ 65535 → s.records.current.buildSeconds ≤ 65535 →
    Answers .controlSecond s (fun t =>
      t.records.current.advanceSeconds =
          min (s.records.current.advanceSeconds + (if s.thrust.mode = .advance then 1 else 0)) 65535
        ∧ t.records.current.buildSeconds =
            min (s.records.current.buildSeconds + (if s.build.state ≠ .ringOpen then 1 else 0)) 65535
        ∧ (∀ p, s.records.current.spoil = some p → s.cfg.roles.screw = true →
            let vex := s.cfg.af * max s.view.lring (ringMean s)
            let vrm := if p.belt ≤ p.additive then 0 else roundNat ((p.belt - p.additive) * 1000000) s.cfg.rho
            let ratio := if vex < s.cfg.af * 1000 then none else some (min (vrm * 1000 / vex) 4095)
            (t.records.current.spoil.map SpoilPart.vex = some vex)
              ∧ t.records.current.spoil.map SpoilPart.vrm = some vrm
              ∧ t.records.current.spoil.map SpoilPart.ratio = some ratio
              ∧ t.records.current.spoil.map SpoilPart.negativeNet = some (p.negativeNet || decide (p.belt ≤ p.additive))
              ∧ t.records.current.spoil.map SpoilPart.isOver
                  = some (p.isOver || decide (s.records.limits.upper < ratio.getD 0))
              ∧ t.records.current.spoil.map SpoilPart.isUnder
                  = some (p.isUnder || decide (ratio.getD s.records.limits.lower < s.records.limits.lower))
              ∧ t.train.reasons.isOver = decide (s.records.limits.upper < ratio.getD 0))))
  ∧ (∀ (d : Nat) (s : State), s.running = true → s.clock.controlDue = some d → s.erector.seq ≠ .awaitingPress →
    s.grout.line = .armed ∨ s.grout.line = .injecting →
    Answers .controlSecond s (fun t =>
      let rate :=
        roundNat ((s.thrust.advance - s.grout.sample) * s.cfg.aa * s.grout.active.ratio * 60)
          (1000 * max (groutReady s) 1 * s.cfg.vs)
      t.grout.rate = min rate s.cfg.pumpMax ∧ t.grout.sample = s.thrust.advance
        ∧ (s.grout.line = .injecting → t.grout.line = .injecting →
            t.grout.saturated = decide (s.cfg.pumpMax < rate))))
  ∧ (∀ (s : State), s.clock.controlDue = none → exec .controlSecond s = .next s)

/-! ### Train unit -/

/-- 07 R109: TRAIN IN is BUSY while cars are recorded; taken, it records the cars, car 1 FILLING, with the flag OVER
while OVER is present. R113, R114: TRAIN OUT reports every car with its flags, empties the queue and both masses, and
the reason TRAIN is HOLD. -/
def Obligations.TrainInAndOut : Prop :=
  (∀ (h : CmdHead) (n c : Nat) (s : State), 1 ≤ n → n ≤ 8 → c < 65536 → s.life = .ready → s.cfg.roles.screw = true →
    s.train.cars ≠ [] → exec (.trainIn h (beBytes 1 n ++ beBytes 2 c)) s = .next (replyOnly h 17 .busy s))
  ∧ (∀ (h : CmdHead) (n c : Nat) (s : State), 1 ≤ n → n ≤ 8 → c < 65536 → s.life = .ready → s.cfg.roles.screw = true →
    s.train.cars = [] →
    Answers (.trainIn h (beBytes 1 n ++ beBytes 2 c)) s (fun t =>
      FrameOf
          { s with
            train :=
              { s.train with
                cars :=
                  (List.range n).map (fun i =>
                    { capacity := max 1000 (min c 40000), filled := 0, additive := 0
                      state := if i = 0 then .filling else .waiting
                      flagAdditive := false, flagOver := decide (i = 0) && s.train.reasons.isOver
                      flagShort := false }) } } t
        ∧ Answered h 17 (clampedOr .done [(n, n), (c, max 1000 (min c 40000))]) s t))
  ∧ (∀ (h : CmdHead) (s : State), s.life = .ready → s.cfg.roles.screw = true →
    Answers (.trainOut h []) s (fun t =>
      FrameOf { s with train := { s.train with cars := [], mass := 0, overflow := 0 } } t
        ∧ t.train.reasons.train = .hold
        ∧ Sent h 18 .done
            (byteOf s.train.cars.length ::
              s.train.cars.flatMap (fun c =>
                beBytes 2 c.filled
                  ++ [byteOf ((if c.flagAdditive || decide (c.filled < c.additive * 10) then 128 else 0)
                        + (if c.flagOver then 64 else 0)
                        + (if c.flagShort || decide (c.state = .filling) then 32 else 0))])) t))

/-- 07 R119: SET PACE LEVELS takes the clamped levels, the slow level raised to the hold level, and the clamped belt
silence; raising the slow level counts as clamping it. 06 R102: a running belt-silence timer expires at once when the
time since its start reaches the new value. -/
def Obligations.PaceLevelsSet : Prop :=
  ∀ (h : CmdHead) (a b c : Nat) (s : State), a < 16777216 → b < 16777216 → c < 256 → s.life = .ready →
    s.cfg.roles.screw = true →
    Answers (.setPaceLevels h (beBytes 3 a ++ beBytes 3 b ++ beBytes 1 c)) s (fun t =>
      baseOf t =
          { baseOf s with
            holdLevel := min a 200000
            slowLevel := max (min b 200000) (min a 200000)
            beltTime := max 5 (min c 120)
            beltSilent :=
              s.train.reasons.beltSilent
                || (match s.screw.beltStart with
                    | some t0 => decide (t0 + max 5 (min c 120) * 1000 ≤ s.clock.now)
                    | none => false) }
        ∧ (s.erector.seq ≠ .awaitingPress → ringOf t = ringOf s)
        ∧ Answered h 19
            (clampedOr .done
              [(a, min a 200000), (b, max (min b 200000) (min a 200000)), (c, max 5 (min c 120))]) s t)

/-- 07 R110, R111; 09 R140; 06 R103: a belt pulse goes whole to the FILLING car, or to the overflow without one, and to
the train mass, unless that would pass 9,999,999; a car at its capacity is FULL and the next FILLING; the ring's belt
mass counts it; BELT SILENT leaves. 07 R112: an additive pulse goes to the FILLING car's additive mass and to the
ring's. 06 R102: a belt pulse restarts a watched belt-silence timer from its moment, and leaves one that is not watched
as it stands; the belt-silence expiry joins BELT SILENT, with the clock at least at that moment (model, log 3), and
changes nothing with the timer idle (model, log 3, log 5). -/
def Obligations.PulsesCounted : Prop :=
  (∀ (before after : List Car) (c : Car) (s : State), s.running = true → s.cfg.roles.screw = true →
    s.train.cars = before ++ c :: after → before.all (fun x => x.state ≠ .filling) = true → c.state = .filling →
    s.train.mass + s.cfg.beltScale ≤ 9999999 → c.filled + s.cfg.beltScale < c.capacity →
    Answers .beltPulse s (fun t =>
      baseOf t =
        { baseOf s with
          cars := before ++ { c with filled := c.filled + s.cfg.beltScale } :: after
          mass := s.train.mass + s.cfg.beltScale
          beltSilent := false }))
  ∧ (∀ (before after : List Car) (c : Car) (s : State), s.running = true → s.cfg.roles.screw = true →
    s.train.cars = before ++ c :: after → before.all (fun x => x.state ≠ .filling) = true → c.state = .filling →
    s.train.mass + s.cfg.beltScale ≤ 9999999 → c.capacity ≤ c.filled + s.cfg.beltScale →
    after.all (fun x => x.state = .waiting) = true →
    Answers .beltPulse s (fun t =>
      baseOf t =
        { baseOf s with
          cars :=
            before ++ { c with filled := c.filled + s.cfg.beltScale, state := .full }
              :: after.modify 0 (fun x =>
                  { x with state := .filling, flagOver := x.flagOver || s.train.reasons.isOver })
          mass := s.train.mass + s.cfg.beltScale
          beltSilent := false }))
  ∧ (∀ (s : State), s.running = true → s.cfg.roles.screw = true →
    s.train.cars.all (fun x => x.state ≠ .filling) = true → s.train.mass + s.cfg.beltScale ≤ 9999999 →
    Answers .beltPulse s (fun t =>
      baseOf t =
        { baseOf s with
          overflow := s.train.overflow + s.cfg.beltScale
          mass := s.train.mass + s.cfg.beltScale
          beltSilent := false }))
  ∧ (∀ (s : State), s.running = true → s.cfg.roles.screw = true → 9999999 < s.train.mass + s.cfg.beltScale →
    Answers .beltPulse s (fun t => baseOf t = { baseOf s with beltSilent := false }))
  ∧ (∀ (p : SpoilPart) (s : State), s.running = true → s.cfg.roles.screw = true → s.records.current.spoil = some p →
    s.erector.seq ≠ .awaitingPress →
    Answers .beltPulse s (fun t =>
      t.records.current.spoil.map (fun q => (q.belt, q.massAtLimit))
        = some
            (if 9999999 < p.belt + s.cfg.beltScale then (p.belt, true)
             else (p.belt + s.cfg.beltScale, p.massAtLimit))))
  ∧ (∀ (p : SpoilPart) (s : State), s.running = true → s.cfg.roles.screw = true → s.records.current.spoil = some p →
    s.erector.seq ≠ .awaitingPress →
    Answers .additivePulse s (fun t =>
      t.records.current.spoil.map (fun q => (q.additive, q.massAtLimit))
          = some
              (if 9999999 < p.additive + s.cfg.addScale then (p.additive, true)
               else (p.additive + s.cfg.addScale, p.massAtLimit))
        ∧ baseOf t =
            { baseOf s with
              cars :=
                s.train.cars.map (fun c =>
                  if c.state = .filling then { c with additive := min (c.additive + s.cfg.addScale) 9999999 } else c) }))
  ∧ (∀ (s : State), s.running = true → s.cfg.roles.screw = true →
    Answers .beltPulse s (fun t =>
      ScrewChosen s → t.screw.state = s.screw.state →
        t.screw.beltStart =
          (if s.screw.state = .running ∧ 0 < s.screw.command then some s.clock.now else s.screw.beltStart)))
  ∧ (∀ (t0 : Nat) (s : State), s.running = true → s.screw.beltStart = some t0 →
    Answers .beltSilenceExpiry s (fun t =>
      t.screw.beltStart = none
        ∧ baseOf t =
            { baseOf s with
              beltSilent := true
              clock := { s.clock with now := max s.clock.now (t0 + s.screw.beltTime * 1000) } }
        ∧ (s.cfg.roles.screw = true → t.train.pace = .hold)))
  ∧ (∀ (s : State), s.screw.beltStart = none → exec .beltSilenceExpiry s = .next s)

/-! ### Grout unit -/

/-- 08 R126: SET GROUT writes the clamped set into the pending slot, replacing any set there, and changes nothing that
is active; the answer is DEFERRED, or CLAMPED naming the first clamped operand. 09 R143: SET BALANCE LIMITS does the
same with the pair, the upper limit raised to the lower. -/
def Obligations.PendingSettingsDeferred : Prop :=
  (∀ (h : CmdHead) (o c r l : Nat) (s : State), o < 65536 → c < 65536 → r < 65536 → l < 65536 → s.life = .ready →
    s.cfg.roles.line = true →
    exec (.setGrout h (beBytes 2 o ++ beBytes 2 c ++ beBytes 2 r ++ beBytes 2 l)) s =
      .next
        (replyOnly h 20
          (clampedOr .deferred
            [(o, min o s.cfg.w), (c, min c s.cfg.w), (r, max 1000 (min r 2000)), (l, max 50 (min l 800))])
          { s with
            grout :=
              { s.grout with
                waiting :=
                  some
                    { opens := min o s.cfg.w, closes := min c s.cfg.w, ratio := max 1000 (min r 2000)
                      limit := max 50 (min l 800) } } }))
  ∧ (∀ (h : CmdHead) (lo up : Nat) (s : State), lo < 65536 → up < 65536 → s.life = .ready → s.cfg.roles.screw = true →
    exec (.setBalanceLimits h (beBytes 2 lo ++ beBytes 2 up)) s =
      .next
        (replyOnly h 16
          (clampedOr .deferred
            [(lo, max 500 (min lo 2000)), (up, max (max 500 (min up 2000)) (max 500 (min lo 2000)))])
          { s with
            records :=
              { s.records with
                waitingLimits :=
                  some
                    { lower := max 500 (min lo 2000)
                      upper := max (max 500 (min up 2000)) (max 500 (min lo 2000)) } } }))
  ∧ (∀ (h : CmdHead) (o c r l : Nat) (s : State), s.life = .ready → s.cfg.roles.line = false →
    exec (.setGrout h (beBytes 2 o ++ beBytes 2 c ++ beBytes 2 r ++ beBytes 2 l)) s =
      .next (replyOnly h 20 .notApplicable s))
  ∧ (∀ (h : CmdHead) (lo up : Nat) (s : State), s.life = .ready → s.cfg.roles.screw = false →
    exec (.setBalanceLimits h (beBytes 2 lo ++ beBytes 2 up)) s = .next (replyOnly h 16 .notApplicable s))

/-- 08 R122, R130, R131: ARM LINE, CLOSE LINE and FLUSH LINE at a present line, case by case of their tables. That ARM LINE of
a CLOSED line does not compare a pressure that stands above the limit already is the model's reading of R133 (model, log
32). -/
def Obligations.LineCommandsFollowTables : Prop :=
  (∀ (h : CmdHead) (s : State), s.life = .ready → s.cfg.roles.line = true → s.grout.line = .closed →
    Answers (.armLine h []) s (fun t =>
      (SequenceSettled s → HoldsFollow s →
          t.grout.line = .armed ∨ (t.grout.line = .injecting ∧ t.thrust.mode = .advance))
        ∧ FrameOf { s with grout := { s.grout with potStart := some s.clock.now } } t ∧ Answered h 21 .done s t))
  ∧ (∀ (h : CmdHead) (s : State), s.life = .ready → s.cfg.roles.line = true → s.grout.line = .tripped →
    s.grout.setting = false → s.inputs.linePressure < s.grout.active.limit →
    Answers (.armLine h []) s (fun t =>
      FrameOf s t ∧ Answered h 21 .done s t
        ∧ (s.erector.seq ≠ .awaitingPress →
            t.grout.line = .armed ∨ (t.grout.line = .injecting ∧ t.thrust.mode = .advance))))
  ∧ (∀ (h : CmdHead) (s : State), s.life = .ready → s.cfg.roles.line = true →
    s.grout.line = .armed ∨ s.grout.line = .injecting → exec (.armLine h []) s = .next (doneOnly h 21 s))
  ∧ (∀ (h : CmdHead) (s : State), s.life = .ready → s.cfg.roles.line = true →
    s.grout.line = .flushing
      ∨ (s.grout.line = .tripped ∧ (s.grout.setting = true ∨ s.grout.active.limit ≤ s.inputs.linePressure)) →
    exec (.armLine h []) s = .next (replyOnly h 21 .busy s))
  ∧ (∀ (h : CmdHead) (s : State), s.life = .ready → s.cfg.roles.line = true →
    s.grout.line = .armed ∨ s.grout.line = .injecting →
    Answers (.closeLine h []) s (fun t =>
      t.grout.line = (if s.grout.used then .flushing else .closed) ∧ t.grout.rate = 0
        ∧ FrameOf
            { s with
              grout :=
                { s.grout with
                  potStart := none
                  flushStart := if s.grout.used then some s.clock.now else s.grout.flushStart } } t
        ∧ Answered h 22 .done s t))
  ∧ (∀ (h : CmdHead) (s : State), s.life = .ready → s.cfg.roles.line = true → s.grout.line = .closed →
    exec (.closeLine h []) s = .next (doneOnly h 22 s))
  ∧ (∀ (h : CmdHead) (s : State), s.life = .ready → s.cfg.roles.line = true →
    s.grout.line = .flushing ∨ s.grout.line = .tripped →
    exec (.closeLine h []) s = .next (replyOnly h 22 .busy s))
  ∧ (∀ (h : CmdHead) (s : State), s.life = .ready → s.cfg.roles.line = true →
    s.grout.line = .closed ∨ s.grout.line = .armed
      ∨ (s.grout.line = .tripped ∧ s.inputs.linePressure < s.grout.active.limit) →
    Answers (.flushLine h []) s (fun t =>
      t.grout.line = .flushing ∧ t.grout.rate = 0 ∧ t.grout.used = false ∧ t.out.flushValve = true
        ∧ t.out.groutValve = false
        ∧ FrameOf { s with grout := { s.grout with potStart := none, flushStart := some s.clock.now } } t
        ∧ Answered h 23 .done s t))
  ∧ (∀ (h : CmdHead) (s : State), s.life = .ready → s.cfg.roles.line = true →
    s.grout.line = .injecting ∨ s.grout.line = .flushing
      ∨ (s.grout.line = .tripped ∧ s.grout.active.limit ≤ s.inputs.linePressure) →
    exec (.flushLine h []) s = .next (replyOnly h 23 .busy s))

/-- 08 R134: SET GROUT TIMES takes both values, clamped; running timers that do not reach the new values keep their
start, and one that does expires at once. R135: SET GROUT MINIMUM is clamped to 8 and then to N, used at once by the
GROUT reason, and returned to 0 by every reset. -/
def Obligations.GroutTimesAndMinimumSet : Prop :=
  (∀ (h : CmdHead) (p f : Nat) (s : State), p < 65536 → f < 65536 → s.life = .ready → s.cfg.roles.line = true →
    (∀ t0, s.grout.potStart = some t0 → s.clock.now < t0 + max 300 (min p 7200) * 1000) →
    (∀ t0, s.grout.flushStart = some t0 → s.clock.now < t0 + max 10 (min f 600) * 1000) →
    Answers (.setGroutTimes h (beBytes 2 p ++ beBytes 2 f)) s (fun t =>
      FrameOf
          { s with grout := { s.grout with potLife := max 300 (min p 7200), flushTime := max 10 (min f 600) } } t
        ∧ Answered h 24 (clampedOr .done [(p, max 300 (min p 7200)), (f, max 10 (min f 600))]) s t))
  ∧ (∀ (h : CmdHead) (p f t0 : Nat) (s : State), p < 65536 → f < 65536 → s.life = .ready → s.cfg.roles.line = true →
    s.grout.line = .armed ∨ s.grout.line = .injecting → s.grout.potStart = some t0 → s.grout.flushStart = none →
    t0 + max 300 (min p 7200) * 1000 ≤ s.clock.now →
    Answers (.setGroutTimes h (beBytes 2 p ++ beBytes 2 f)) s (fun t =>
      t.grout.line = .flushing ∧ t.grout.potStart = none ∧ t.grout.flushStart = some s.clock.now))
  ∧ (∀ (h : CmdHead) (p f t0 : Nat) (s : State), p < 65536 → f < 65536 → s.life = .ready → s.cfg.roles.line = true →
    s.grout.line = .tripped → s.grout.potStart = some t0 → s.grout.flushStart = none →
    t0 + max 300 (min p 7200) * 1000 ≤ s.clock.now →
    Answers (.setGroutTimes h (beBytes 2 p ++ beBytes 2 f)) s (fun t =>
      t.grout.line = .tripped ∧ t.grout.setting = true ∧ t.grout.potStart = none))
  ∧ (∀ (h : CmdHead) (p f t0 : Nat) (s : State), p < 65536 → f < 65536 → s.life = .ready → s.cfg.roles.line = true →
    s.grout.flushStart = some t0 → t0 + max 10 (min f 600) * 1000 ≤ s.clock.now →
    Answers (.setGroutTimes h (beBytes 2 p ++ beBytes 2 f)) s (fun t =>
      t.grout.line = .closed ∧ t.grout.flushStart = none ∧ t.grout.setting = false))
  ∧ (∀ (i : Instr) (s : State), i = .powerOnReset ∨ i = .pinReset → Answers i s (fun t => t.grout.gmin = 0))
  ∧ (∀ (h : CmdHead) (s : State), h.source = .service → s.life ≠ .starting →
    Answers (.restart h []) s (fun t => t.grout.gmin = 0))
  ∧ (∀ (h : CmdHead) (g : Nat) (s : State), g < 256 → s.life = .ready →
    Answers (.setGroutMinimum h (beBytes 1 g)) s (fun t =>
      FrameOf { s with grout := { s.grout with gmin := min (min g 8) s.cfg.n } } t
        ∧ t.thrust.holds.grout = decide (groutReady t < min (min g 8) s.cfg.n)
        ∧ Answered h 25 (clampedOr .done [(g, min (min g 8) s.cfg.n)]) s t))

/-- 08 R133: a line pressure above the active limit trips an ARMED or INJECTING line; any other reading is only taken, and
the line goes between ARMED and INJECTING alone, as the injection condition stands (R123).
R129: a stroke pulse in INJECTING counts a stroke and V_s and restarts the pot-life timer; in any other state it counts
nothing. R132, R131: the pot-life expiry flushes an ARMED or INJECTING line and raises LINE SETTING in TRIPPED; the
flush expiry closes the line and lowers it (clock: model, log 3). An expiry with its timer idle changes nothing (model, log
3, log 5). -/
def Obligations.LineEventsAndTimers : Prop :=
  (∀ (r : Reading) (s : State), s.running = true → readingFits 1000 r = true →
    s.grout.line = .armed ∨ s.grout.line = .injecting → s.grout.active.limit < r.getD 1000 →
    Answers (.linePressureReading r) s (fun t =>
      t.grout.line = .tripped ∧ t.grout.rate = 0 ∧ t.grout.saturated = false ∧ t.out.groutValve = false
        ∧ FrameOf { s with inputs := { s.inputs with linePressure := r.getD 1000 } } t
        ∧ (s.erector.seq ≠ .awaitingPress →
            t.records.current.grout.map GroutPart.lineTripped = s.records.current.grout.map (fun _ => true))))
  ∧ (∀ (r : Reading) (s : State), s.running = true → readingFits 1000 r = true →
    (s.grout.line ≠ .armed ∧ s.grout.line ≠ .injecting) ∨ r.getD 1000 ≤ s.grout.active.limit →
    Answers (.linePressureReading r) s (fun t =>
      FrameOf { s with inputs := { s.inputs with linePressure := r.getD 1000 } } t
        ∧ (s.grout.line ≠ .armed → s.grout.line ≠ .injecting →
            t.grout.line = s.grout.line ∧ t.grout.rate = s.grout.rate ∧ t.grout.saturated = s.grout.saturated)
        ∧ (s.erector.seq ≠ .awaitingPress →
            (s.grout.line = .armed ∨ s.grout.line = .injecting →
                t.grout.rate = s.grout.rate
                  ∧ (t.grout.line = .injecting
                      ∨ (t.grout.line = .armed
                        ∧ ¬(t.thrust.mode = .advance ∧ inWindow t.grout.active t.grout.tail t.thrust.advance)))
                  ∧ (t.grout.line = .injecting →
                      t.thrust.mode = .advance ∧ inWindow t.grout.active t.grout.tail t.thrust.advance))
              ∧ t.records.current.grout.map GroutPart.lineTripped
                  = s.records.current.grout.map GroutPart.lineTripped)))
  ∧ (∀ (s : State), s.running = true → s.grout.line = .injecting →
    Answers .strokePulse s (fun t =>
      FrameOf
        { s with
          grout :=
            { s.grout with
              strokes := min (s.grout.strokes + 1) 99999
              volume := min (s.grout.volume + s.cfg.vs) 9999999
              potStart := some s.clock.now } } t))
  ∧ (∀ (s : State), s.running = false ∨ s.grout.line ≠ .injecting → exec .strokePulse s = .next s)
  ∧ (∀ (t0 : Nat) (s : State), s.running = true → s.grout.potStart = some t0 →
    s.grout.line = .armed ∨ s.grout.line = .injecting →
    Answers .potLifeExpiry s (fun t =>
      t.grout.line = .flushing ∧ t.grout.used = false ∧ t.grout.rate = 0 ∧ t.out.flushValve = true
        ∧ baseOf t =
            { baseOf s with
              potStart := none
              clock := { s.clock with now := max s.clock.now (t0 + s.grout.potLife * 1000) }
              flushStart := some (max s.clock.now (t0 + s.grout.potLife * 1000)) }))
  ∧ (∀ (t0 : Nat) (s : State), s.running = true → s.grout.potStart = some t0 → s.grout.line = .tripped →
    Answers .potLifeExpiry s (fun t =>
      t.grout.line = .tripped
        ∧ baseOf t =
            { baseOf s with
              potStart := none, setting := true
              clock := { s.clock with now := max s.clock.now (t0 + s.grout.potLife * 1000) } }))
  ∧ (∀ (t0 : Nat) (s : State), s.running = true → s.grout.flushStart = some t0 →
    Answers .flushTimerExpiry s (fun t =>
      t.grout.line = .closed ∧ t.out.flushValve = false
        ∧ baseOf t =
            { baseOf s with
              potStart := none, flushStart := none, setting := false
              clock := { s.clock with now := max s.clock.now (t0 + s.grout.flushTime * 1000) } }))
  ∧ (∀ (s : State), s.grout.potStart = none → exec .potLifeExpiry s = .next s)
  ∧ (∀ (s : State), s.grout.flushStart = none → exec .flushTimerExpiry s = .next s)

/-! ### Ring record unit -/

/-- 09 R148: CLEAR HISTORY empties the history and changes nothing else. R149: SET RING is BUSY in a build; in OPEN it
discards the current record, empties the history and opens ring n with cause SET RING, the units opening it, the pending
settings kept; the pace reason OVER and the car flags stand as they were (model, log 25). R147, 10 R160: READ RECORD and
READ HISTORY change nothing and queue the two sheets of the record, or sheet 1 marked EMPTY. -/
def Obligations.RecordCommandsAnswer : Prop :=
  (∀ (h : CmdHead) (s : State), s.life = .ready →
    exec (.readRecord h []) s =
      .next
        (enqueue (.reply h.source 26 h.tag .done (sheetTwo s.records.current))
          (enqueue (.reply h.source 26 h.tag .done (sheetOne s.records.current)) s)))
  ∧ (∀ (h : CmdHead) (i : Nat) (r : Record) (s : State), i < 16 → s.life = .ready →
    s.records.history.reverse[i]? = some r →
    exec (.readHistory h (beBytes 1 i)) s =
      .next
        (enqueue (.reply h.source 27 h.tag .done (sheetTwo r)) (enqueue (.reply h.source 27 h.tag .done (sheetOne r)) s)))
  ∧ (∀ (h : CmdHead) (i : Nat) (s : State), i < 16 → s.life = .ready → s.records.history.length ≤ i →
    exec (.readHistory h (beBytes 1 i)) s = .next (enqueue (.reply h.source 27 h.tag .done [64]) s))
  ∧ (∀ (h : CmdHead) (s : State), h.source = .service → s.life = .ready →
    exec (.clearHistory h []) s = .next (doneOnly h 28 { s with records := { s.records with history := [] } }))
  ∧ (∀ (h : CmdHead) (n : Nat) (s : State), h.source = .service → n < 65536 → s.life = .ready →
    s.build.state ≠ .ringOpen → exec (.setRing h (beBytes 2 n)) s = .next (replyOnly h 29 .busy s))
  ∧ (∀ (h : CmdHead) (n : Nat) (s : State), h.source = .service → n < 65536 → s.life = .ready →
    s.build.state = .ringOpen →
    Answers (.setRing h (beBytes 2 n)) s (fun t =>
      baseOf t = baseOf s
        ∧ ringOf t =
            { ringOf s with
              ring := n, history := [], cause := .setRing, advanceSeconds := 0, buildSeconds := 0, peakForce := 0
              strokes := 0, volume := 0, groutSample := 0, advance := 0, lring := 0, accumulator := 0, peakTorque := 0
              screwSample := 0 }
        ∧ t.records.current.ring = n ∧ t.grout.tail = none ∧ t.build.entries = [] ∧ t.build.state = .ringOpen
        ∧ t.erector.seq = .standby ∧ t.erector.feederMismatch = false ∧ Answered h 29 .done s t))

/-! ### Bus interface -/

/-- 10 R151 to R153: at an idle moment the head of the queue is offered, a STATE with rank (own − last STATE source − 1)
mod N, every other notice with rank 0, in CONFIG FAULT as in LISTENING and READY; a lost or failed offer ends with its
notice left in the queue, where it waits again by its class (model, log 33), and the renewal mark cleared; a failed one
counts a line fault. A row that finds nothing to offer or end changes nothing (model, log 5). -/
def Obligations.OffersBeginAndFail : Prop :=
  (∀ (x : QueueItem) (rest : List QueueItem) (s : State), s.life ≠ .starting → s.bus.offer = none →
    s.bus.queue = x :: rest → (x.notice = .state → s.own < s.cfg.n ∧ s.bus.lastSource.getD 0 < s.cfg.n) →
    Answers .offerBegin s (fun t =>
      ∃ f : Frame,
        t = { s with bus := { s.bus with queue := { x with offering := true } :: rest, offer := some f } }
          ∧ f.cls = noticeClass x.notice ∧ f.source = s.own ∧ f.kind = noticeKind x.notice
          ∧ f.body = noticeBody s x.notice
          ∧ (f.rank : Int) =
              (if x.notice = .state then
                 ((s.own : Int) - ((s.bus.lastSource.getD (s.cfg.n - 1) : Nat) : Int) - 1) % (s.cfg.n : Int)
               else 0)))
  ∧ (∀ (s : State), s.life = .starting ∨ s.bus.offer ≠ none ∨ s.bus.queue = [] → exec .offerBegin s = .next s)
  ∧ (∀ (x : QueueItem) (rest : List QueueItem) (s : State), s.bus.offer ≠ none → s.bus.queue = x :: rest →
    x.offering = true →
    exec .contentionLost s =
      .next { s with bus := { s.bus with queue := waitingAgain x rest, offer := none, renewal := false } })
  ∧ (∀ (s : State), s.running = true → s.bus.offer ≠ none →
    Answers .offerFailed s (fun t =>
      t.bus.offer = none ∧ t.bus.renewal = false ∧ t.bus.faults = min (s.bus.faults + 1) 16
        ∧ (∀ x rest, s.bus.queue = x :: rest → x.offering = true → QueueKept (waitingAgain x rest) t)
        ∧ (s.bus.faults < 15 →
            FrameOf { s with bus := { s.bus with offer := none, renewal := false, faults := s.bus.faults + 1 } } t)))
  ∧ (∀ (x : QueueItem) (rest : List QueueItem) (s : State), s.life = .configFault → s.bus.offer ≠ none →
    s.bus.queue = x :: rest → x.offering = true →
    Answers .offerFailed s (fun t =>
      t.bus =
          { s.bus with
            queue := waitingAgain x rest, offer := none, renewal := false
            faults := min (s.bus.faults + 1) 16, lineFault := s.bus.lineFault || decide (15 ≤ s.bus.faults) }
        ∧ { t with bus := s.bus, view := { t.view with completion := s.view.completion } } = s))
  ∧ (∀ (s : State), s.bus.offer = none → exec .offerFailed s = .next s ∧ exec .contentionLost s = .next s)

/-- 10 R153, R154, R157, R158, R152; 01 R18; 12 R168: at a completion the notice leaves the queue, and a STATE is queued
again behind the others when it was a STATE with the renewal mark set; the line-fault count and condition end, in CONFIG
FAULT too; a BLIND station sets its completion marker and leaves BLIND with an entry FRESH, a LISTENING station
sets its probe marker; a completed STATE advances the page count modulo 8 and makes the own address the last STATE
source. With no offer in progress the row changes
nothing (model, log 5). -/
def Obligations.OfferCompletionHandedOn : Prop :=
  (∀ (s : State), s.running = true → s.bus.offer ≠ none →
    Answers .offerCompleted s (fun t =>
      t.bus.offer = none ∧ t.bus.faults = 0 ∧ t.bus.lineFault = false ∧ t.bus.renewal = false
        ∧ QueueKept
            (if offeredNotice s.bus.queue = some .state ∧ s.bus.renewal = true then
               s.bus.queue.eraseP QueueItem.offering ++ [{ notice := .state, offering := false }]
             else s.bus.queue.eraseP QueueItem.offering) t
        ∧ (offeredNotice s.bus.queue = some .state →
            t.bus.page = (s.bus.page + 1) % 8 ∧ t.bus.lastSource = some s.own)
        ∧ (offeredNotice s.bus.queue ≠ some .state →
            t.bus.page = s.bus.page ∧ t.bus.lastSource = s.bus.lastSource)
        ∧ t.view.blind = (s.view.blind && (freshPeers s).isEmpty)
        ∧ (s.view.blind = true → t.view.completion = true)
        ∧ (s.life = .listening → t.probe = true)
        ∧ (s.life = .listening → s.listen = s.cfg.k + 1 → t.life = .ready)
        ∧ t.view.peers = s.view.peers ∧ t.view.trips = s.view.trips ∧ t.inputs = s.inputs ∧ t.clock = s.clock))
  ∧ (∀ (s : State), s.life = .configFault → s.view.blind = false → s.bus.offer ≠ none →
    offeredNotice s.bus.queue ≠ some .state →
    exec .offerCompleted s =
      .next
        { s with
          bus :=
            { s.bus with
              queue := s.bus.queue.eraseP QueueItem.offering, offer := none, faults := 0, lineFault := false
              renewal := false } })
  ∧ (∀ (s : State), s.bus.offer = none → exec .offerCompleted s = .next s)

/-- 10 R154, R156; 01 R17: the failed offer or the foreign own-address notice that takes the line-fault count to 16
raises the line fault, and a READY station becomes BLIND with its completion marker clear and its build suspended. A
foreign notice below that counts, and sets the listen count of a LISTENING station to 0 (12 R168); its body reaches no
unit. That the LINE_FAULT row is that failed offer or foreign notice whole, counts the sixteenth fault itself, and changes
nothing where it is not the sixteenth, is the model's choice (model, log 4). 10 R152: a foreign notice that is a STATE makes its source, the own address, the last
STATE source, and no other fault changes it. -/
def Obligations.LineFaultMakesBlind : Prop :=
  (∀ (by_ : FaultOccasion) (s : State), s.life = .ready → s.bus.faults = 15 → s.bus.lineFault = false →
    (by_ = .failedOffer → s.bus.offer ≠ none) →
    Answers (.lineFault by_) s (fun t =>
      t.bus.faults = 16 ∧ t.bus.lineFault = true
        ∧ (by_ ≠ .foreignNotice true → t.bus.lastSource = s.bus.lastSource)
        ∧ (by_ = .foreignNotice true → s.own < s.cfg.n → t.bus.lastSource = some s.own)
        ∧ (by_ = .failedOffer → t.bus.offer = none) ∧ (by_ ≠ .failedOffer → t.bus.offer = s.bus.offer)
        ∧ t.view.blind = true ∧ t.view.completion = false
        ∧ (s.view.blind = false → t.build.state ≠ .building) ∧ t.thrust.mode ≠ .advance
        ∧ t.view.peers = s.view.peers ∧ t.view.trips = s.view.trips ∧ t.inputs = s.inputs ∧ t.clock = s.clock))
  ∧ (∀ (isState : Bool) (s : State), s.running = true → s.own < s.cfg.n → s.bus.faults < 15 →
    Answers (.foreignOwnAddressNotice isState) s (fun t =>
      FrameOf
        { s with
          bus :=
            { s.bus with
              faults := s.bus.faults + 1
              lastSource := if isState then some s.own else s.bus.lastSource }
          listen := if s.life = .listening then 0 else s.listen } t))
  ∧ (∀ (by_ : FaultOccasion) (s : State), s.life = .listening → s.bus.faults = 15 → s.bus.lineFault = false →
    (by_ = .failedOffer → s.bus.offer ≠ none) →
    Answers (.lineFault by_) s (fun t =>
      t.life = .listening ∧ t.bus.faults = 16 ∧ t.bus.lineFault = true ∧ t.view.blind = s.view.blind
        ∧ t.listen = (if by_ = .failedOffer then s.listen else 0)))
  ∧ (∀ (s : State), s.bus.faults = 15 → s.bus.lineFault = false →
    exec (.lineFault .failedOffer) s = exec .offerFailed s
      ∧ ∀ isState, exec (.lineFault (.foreignNotice isState)) s = exec (.foreignOwnAddressNotice isState) s)
  ∧ (∀ (by_ : FaultOccasion) (s : State), s.bus.faults ≠ 15 ∨ s.bus.lineFault = true →
    exec (.lineFault by_) s = .next s)
  ∧ (∀ (isState : Bool) (s : State), s.running = false → exec (.foreignOwnAddressNotice isState) s = .next s)

/-- 12 R168: LISTENING ends at the first expiry or completion after which the listen count stands at k+1 and the probe
marker is set; a line fault that holds makes the READY station BLIND, its completion marker clear (01 R17). That the row
is that expiry or completion whole is the model's choice (model, log 4), as is the clause on the clock (model, log 3).
-/
def Obligations.ListeningEndsInReady : Prop :=
  (∀ (d : Nat) (s : State), s.life = .listening → s.clock.noticeDue = some d → s.probe = true → s.cfg.k ≤ s.listen →
    s.listen ≤ s.cfg.k + 1 →
    Answers (.becomeReady .expiry) s (fun t =>
      t.life = .ready ∧ t.listen = s.cfg.k + 1 ∧ t.view.peers = (ageView s).view.peers
        ∧ t.view.blind = (s.view.blind || s.bus.lineFault)
        ∧ (s.view.blind = false → s.bus.lineFault = true →
            t.view.completion = false ∧ t.thrust.mode ≠ .advance ∧ t.thrust.holds.blind = true)
        ∧ t.view.trips = s.view.trips ∧ t.out.status = true
        ∧ t.clock = { s.clock with now := max s.clock.now d, noticeDue := some (d + s.cfg.tn) }))
  ∧ (∀ (s : State), s.life = .listening → s.bus.offer ≠ none → s.listen = s.cfg.k + 1 →
    Answers (.becomeReady .completion) s (fun t =>
      t.life = .ready ∧ t.probe = true ∧ t.bus.faults = 0 ∧ t.bus.lineFault = false ∧ t.view.peers = s.view.peers
        ∧ t.view.trips = s.view.trips ∧ t.clock = s.clock ∧ t.out.status = true))

/-- 10 R155: a notice that fails a check, a COMMAND for another destination, a REPLY of another station, and a TRIP, PACE,
STEP or STATE with an enumerated value outside its list or a progress index above 8 change nothing; in STARTING no notice
is taken. That the check of enumerated fields covers those of the page bytes is the model's reading (model, log 22). -/
def Obligations.DiscardedNoticesChangeNothing : Prop :=
  (∀ (n : RxNotice) (s : State),
    s.life = .starting ∨ n.complete = false ∨ n.body.length ≠ n.len.toNat
      ∨ n.check.toNat ≠ checkWord (frameBits (rxFrame n))
      ∨ (7 < n.source.toNat ∧ n.source.toNat ≠ 14 ∧ n.source.toNat ≠ 15) ∨ 5 < n.kind.toNat
      ∨ (n.kind.toNat = 0 ∧ (n.len.toNat ≠ 32 ∨ n.cls.toNat ≠ 2 ∨ 7 < n.source.toNat))
      ∨ (n.kind.toNat = 1 ∧ (n.len.toNat ≠ 1 ∨ n.cls.toNat ≠ 0 ∨ n.rank.toNat ≠ 0 ∨ n.source.toNat = 15))
      ∨ (n.kind.toNat = 2 ∧ (n.len.toNat ≠ 1 ∨ n.cls.toNat ≠ 1 ∨ n.rank.toNat ≠ 0 ∨ 7 < n.source.toNat))
      ∨ (n.kind.toNat = 3 ∧ (n.len.toNat ≠ 4 ∨ n.cls.toNat ≠ 1 ∨ n.rank.toNat ≠ 0 ∨ 7 < n.source.toNat))
      ∨ (n.kind.toNat = 4
          ∧ (n.len.toNat < 2 ∨ 32 < n.len.toNat ∨ n.cls.toNat ≠ 1 ∨ n.rank.toNat ≠ 0 ∨ n.source.toNat ≤ 7
              ∨ (n.dest.toNat ≠ s.own ∧ n.dest.toNat ≠ 8)))
      ∨ (n.kind.toNat = 1 ∧ 2 < (n.body.getD 0 0).toNat) ∨ (n.kind.toNat = 2 ∧ 2 < (n.body.getD 0 0).toNat)
      ∨ (n.kind.toNat = 3 ∧ 3 < (n.body.getD 0 0).toNat)
      ∨ (n.kind.toNat = 0
          ∧ (8 < (n.body.getD 3 0).toNat / 4 % 16 ∨ 2 < (n.body.getD 3 0).toNat / 64 ∨ 5 < (n.body.getD 4 0).toNat / 32
              ∨ 2 < (n.body.getD 4 0).toNat / 8 % 4 ∨ 5 < (n.body.getD 9 0).toNat / 32
              ∨ 5 < (n.body.getD 9 0).toNat / 4 % 8
              ∨ ((n.body.getD 0 0).toNat % 8 = 0 ∧ 4 < (n.body.getD 26 0).toNat / 32)
              ∨ ((n.body.getD 0 0).toNat % 8 = 1 ∧ 1 < (n.body.getD 28 0).toNat)
              ∨ ((n.body.getD 0 0).toNat % 8 = 4 ∧ 2 < (n.body.getD 23 0).toNat / 64)
              ∨ ((n.body.getD 0 0).toNat % 8 = 5 ∧ 2 < (n.body.getD 24 0).toNat / 64)))
      ∨ (n.kind.toNat = 5
          ∧ (n.len.toNat < 3 ∨ 32 < n.len.toNat ∨ n.cls.toNat ≠ 1 ∨ n.rank.toNat ≠ 0 ∨ 7 < n.source.toNat
              ∨ n.source.toNat ≠ s.own)) →
    exec (.noticeDiscarded n) s = .next s)

/-! ### Invariants that every step keeps -/

/-- 12 R165: the three periodic timers run exactly in LISTENING and READY; 01 R17: BLIND and the silence count leave
their reset values in READY alone. -/
def Obligations.TimersAndBlindFollowLife : Prop :=
  (∀ (s t : State), TimersFollowLife s → step s = .next t → TimersFollowLife t) ∧ KeptByStep BlindInReady

/-- 10 R158: the transmit queue keeps its bound and its single STATE, those that wait keep the order of class, and the notice
on offer stays first; that it takes its place by class again when its offer has not completed is the model's reading
(model, log 33). -/
def Obligations.QueueOrderKept : Prop := KeptByStep QueueInOrder

/-- 03 R52: a group is withdrawn only in a build whose entry at the progress index covers it. -/
def Obligations.WithdrawnOnlyWhileCovered : Prop := KeptByStep WithdrawnOnlyCovered

/-- 05 R80: a drive is STARTING or RUNNING only while the start conditions hold. -/
def Obligations.DriveTurnsOnlyWhenFit : Prop := KeptByStep DriveFit

/-- 06 R95, R94: the screw command is bounded and 0 behind a closed gate, and the screw state is the one the table
chooses. R99: the support valve opens below P_t less the band and closes at P_t, in BUILD HOLD alone; in between it stays
as it stood, closed on entry into BUILD HOLD. -/
def Obligations.ScrewGatedAndChosen : Prop :=
  KeptByStep ScrewGated
    ∧ KeptByStep ScrewChosen
    ∧ KeptByStep SupportFollows
    ∧ (∀ (pt pc : Nat) (s t : State), SupportFollows s → step s = .next t → s.running = true → t.running = true →
        t.cfg.roles.screw = true → t.screw.state = .buildHold → t.screw.target = some pt →
        controlPressure t = some pc → pc < pt → pt ≤ pc + t.screw.band → t.screw.support = s.screw.support)

/-- 07 R115, R117; 06 R101, R104: pace reasons and pace state follow their causes. -/
def Obligations.PaceFollowsReasons : Prop := KeptByStep PaceFollows

/-- 02 R25, R31 to R35: the hold-reason set holds exactly the reasons whose cause holds, and the group advances only
with it empty. -/
def Obligations.HoldReasonsFollowCauses : Prop := KeptByStep HoldsFollow

/-- 08 R123: a line injects only while its group is in ADVANCE; R123, R124: INJECTING stands with the injection condition
and ARMED without it; 02 R24, 05 R78, 06 R95, 08 R121, 04 R77: the outputs
stand as the units' states give them. -/
def Obligations.OutputsFollowStates : Prop :=
  KeptByStep InjectsInAdvance ∧ KeptByStep OutputsFollow ∧ KeptByStep InjectionFollows

/-- 04 R68 to R74, 01 R20: after every event the erector sequence stands in a state that none of its rules leaves, but for a
STANDBY with an entry to work that the end of the work on an earlier entry has left (R73; model, log 26). A STANDBY is left
in the event after which there first is an entry to work, and one with an entry to work in the next event that touches
plan, sequence, group or peer view; an expiry of any of the three periodic timers leaves it at the latest (model, log 26).
R70: the event that enters PLACING issues STEP CLAIM; R72, R73: one that ends PLACING on its ring other than by the seated
input or by moving the index past the entry issues STEP RELEASE; R74: one after which the covered groups are seen HOLD ends
AWAITING PRESS with STEP SET. -/
def Obligations.ErectorSequenceSettled : Prop :=
  KeptByStep SequenceSettled
    ∧ (∀ (s t : State), step s = .next t → t.cfg.roles.erector = true → s.erector.seq = .standby →
        t.erector.seq = .standby → entryToWork t →
        entryToWork s ∧ t.erector = s.erector ∧ planOf t = planOf s ∧ t.thrust = s.thrust ∧ t.view = s.view)
    ∧ (∀ (c : Instr) (s : State), c = .noticePeriodExpiry ∨ c = .controlSecond ∨ c = .driveInterval →
        TimersFollowLife s → s.running = true → s.cfg.roles.erector = true → s.erector.seq = .standby →
        Answers c s (fun t => entryToWork t → t.erector.seq ≠ .standby))
    ∧ (∀ (s t : State), step s = .next t → s.erector.seq ≠ .placing → t.erector.seq = .placing →
        ∃ w, t.erector.working = some w ∧ StepSent .claim w t)
    ∧ (∀ (w : Working) (c : Instr) (s t : State), SequenceSettled s → s.running = true → s.cfg.roles.erector = true →
        s.erector.seq = .placing → s.erector.working = some w → (∀ level, c ≠ .seatedInput level) →
        exec c s = .next t → t.erector.seq ≠ .placing → t.running = true → t.records.ring = w.ring → w.ring < 65535 →
        t.build.index ≤ w.index → StepSent .release w t)
    ∧ (∀ (w : Working) (c : Instr) (s t : State), SequenceSettled s → s.running = true → s.cfg.roles.erector = true →
        s.erector.seq = .awaitingPress → s.erector.working = some w →
        c = .noticePeriodExpiry ∨ c = .controlSecond ∨ c = .driveInterval ∨ (∃ r, c = .forceReading r)
          ∨ (∃ src body, c = .stateArrival src body) →
        exec c s = .next t → t.erector.seq ≠ .awaitingPress → t.view.erectorConflict = false → StepSent .set w t)

/-- 07 R108, R110: the car queue keeps its order, and the train mass is the cars' and the overflow. -/
def Obligations.TrainMassBalanced : Prop := KeptByStep TrainBalanced

/-- 09 R146, R141: the history keeps its bound and order below the current ring; the balance ratio keeps its bounds. -/
def Obligations.HistoryAndRatioInBounds : Prop := KeptByStep HistoryInOrder ∧ KeptByStep RatioBounded

/-- 03 R39, R40: the plan copy keeps its order about the progress index. -/
def Obligations.PlanOrderKept : Prop := KeptByStep PlanInOrder

/-- 01 R2, R4, R15, R16: the entries of the peer view and the own pairs of the trip memory stay true. -/
def Obligations.PeerViewInOrder : Prop := KeptByStep PeersInOrder ∧ KeptByStep OwnTripsKnown

end
end

