-- ==== Sys2Proof/Laws/State.lean ====
section
/-! SUPPORT. Laws/State.lean: for each named update of the state, one lemma for each field it leaves alone and for each
field it writes, true by unfolding the update, so that no later proof unfolds one. -/

namespace Sys2Proof.Machine

open Sys2Proof

/-! ### Fields an update writes -/

@[simp] theorem enqueue_bus_queue (n : TxNotice) (s : State) : (enqueue n s).bus.queue = queueAfter n s.bus.queue := rfl
@[simp] theorem setMode_thrust_mode (m : GroupMode) (s : State) : (setMode m s).thrust.mode = m := rfl
@[simp] theorem setLine_grout_line (l : LineState) (s : State) : (setLine l s).grout.line = l := rfl
@[simp] theorem startFlush_grout_line (s : State) : (startFlush s).grout.line = .flushing := rfl
@[simp] theorem startFlush_grout_flushStart (s : State) : (startFlush s).grout.flushStart = some s.clock.now := rfl
@[simp] theorem endFlush_grout_line (s : State) : (endFlush s).grout.line = .closed := rfl
@[simp] theorem endFlush_grout_flushStart (s : State) : (endFlush s).grout.flushStart = none := rfl
@[simp] theorem endFlush_grout_setting (s : State) : (endFlush s).grout.setting = false := rfl
@[simp] theorem tripLine_grout_line (s : State) : (tripLine s).grout.line = .tripped := rfl
@[simp] theorem raiseMismatch_build_planMismatch (s : State) : (raiseMismatch s).build.planMismatch = true := rfl
@[simp] theorem stopDrive_drive_state (s : State) : (stopDrive s).drive.state = .stopping := rfl
@[simp] theorem stopDrive_drive_trim (s : State) : (stopDrive s).drive.trim = 0 := rfl
@[simp] theorem driveOff_drive_state (s : State) : (driveOff s).drive.state = .off := rfl
@[simp] theorem driveOff_drive_stallStart (s : State) : (driveOff s).drive.stallStart = none := rfl
@[simp] theorem clockTo_clock_now (n : Nat) (s : State) : (clockTo n s).clock.now = max s.clock.now n := rfl
@[simp] theorem judgeOver_train_reasons_isOver (j : Bool) (s : State) : (judgeOver j s).train.reasons.isOver = j := rfl
@[simp] theorem storeAndOpen_records_ring (r : Nat) (c : OpeningCause) (s : State) :
    (storeAndOpen r c s).records.ring = r := rfl
@[simp] theorem storeAndOpen_records_current (r : Nat) (c : OpeningCause) (s : State) :
    (storeAndOpen r c s).records.current = Record.fresh s.cfg.roles r c := rfl
@[simp] theorem openUnits_thrust_advance (s : State) : (openUnits s).thrust.advance = 0 := rfl
@[simp] theorem openUnits_view_lring (s : State) : (openUnits s).view.lring = 0 := rfl
@[simp] theorem openUnits_build_state (s : State) : (openUnits s).build.state = .ringOpen := rfl
@[simp] theorem openUnits_build_entries (s : State) : (openUnits s).build.entries = [] := rfl
@[simp] theorem openUnits_build_index (s : State) : (openUnits s).build.index = 0 := rfl
@[simp] theorem openRing_records_ring (r : Nat) (c : OpeningCause) (s : State) : (openRing r c s).records.ring = r := rfl
@[simp] theorem openRing_records_current (r : Nat) (c : OpeningCause) (s : State) :
    (openRing r c s).records.current = Record.fresh s.cfg.roles r c := rfl
@[simp] theorem moveIndex_build_index (i : Nat) (s : State) : (moveIndex i s).build.index = i := rfl
@[simp] theorem moveIndex_build_retry (i : Nat) (s : State) : (moveIndex i s).build.retry = none := rfl
@[simp] theorem holdsEval_thrust_holds (s : State) : (holdsEval s).thrust.holds = holdsOf s := rfl
@[simp] theorem limitEval_thrust_vlim (s : State) : (limitEval s).thrust.vlim = limitOf s := rfl
@[simp] theorem setSeq_erector_seq (q : SeqState) (s : State) : (setSeq q s).erector.seq = q := rfl
@[simp] theorem standDown_erector_seq (s : State) : (standDown s).erector.seq = .standby := rfl
@[simp] theorem standDown_erector_feederEmpty (s : State) : (standDown s).erector.feederEmpty = false := rfl
@[simp] theorem setOutputs_out (s : State) : (setOutputs s).out = outputsOf s := rfl
@[simp] theorem setStopped_thrust_holds_stopped (b : Bool) (s : State) : (setStopped b s).thrust.holds.stopped = b := rfl
@[simp] theorem removeHead_erector_queue (s : State) : (removeHead s).erector.queue = s.erector.queue.drop 1 := rfl
@[simp] theorem storeBody_bus_lastSource (a : Nat) (b : StateBody) (s : State) :
    (storeBody a b s).bus.lastSource = some a := rfl
@[simp] theorem storeBody_view_heard (a : Nat) (b : StateBody) (s : State) : (storeBody a b s).view.heard = true := rfl
@[simp] theorem dropOffer_bus_offer (s : State) : (dropOffer s).bus.offer = none := rfl
@[simp] theorem dropOffer_bus_renewal (s : State) : (dropOffer s).bus.renewal = false := rfl
@[simp] theorem beltSilent_train_reasons_beltSilent (s : State) : (beltSilent s).train.reasons.beltSilent = true := rfl
@[simp] theorem beltHeard_train_reasons_beltSilent (s : State) : (beltHeard s).train.reasons.beltSilent = false := rfl
@[simp] theorem idle_clock_now (s : State) : (idle s).clock.now = s.clock.now + 1 := rfl

/-! ### Fields that `hearSource` leaves alone -/

@[simp] theorem hearSource_life (src : Nat) (s : State) : (hearSource src s).life = s.life := by
  unfold hearSource; split <;> rfl
@[simp] theorem hearSource_own (src : Nat) (s : State) : (hearSource src s).own = s.own := by
  unfold hearSource; split <;> rfl
@[simp] theorem hearSource_cfg (src : Nat) (s : State) : (hearSource src s).cfg = s.cfg := by
  unfold hearSource; split <;> rfl
@[simp] theorem hearSource_configClamped (src : Nat) (s : State) : (hearSource src s).configClamped = s.configClamped := by
  unfold hearSource; split <;> rfl
@[simp] theorem hearSource_listen (src : Nat) (s : State) : (hearSource src s).listen = s.listen := by
  unfold hearSource; split <;> rfl
@[simp] theorem hearSource_probe (src : Nat) (s : State) : (hearSource src s).probe = s.probe := by
  unfold hearSource; split <;> rfl
@[simp] theorem hearSource_inputs (src : Nat) (s : State) : (hearSource src s).inputs = s.inputs := by
  unfold hearSource; split <;> rfl
@[simp] theorem hearSource_view (src : Nat) (s : State) : (hearSource src s).view = s.view := by
  unfold hearSource; split <;> rfl
@[simp] theorem hearSource_thrust (src : Nat) (s : State) : (hearSource src s).thrust = s.thrust := by
  unfold hearSource; split <;> rfl
@[simp] theorem hearSource_build (src : Nat) (s : State) : (hearSource src s).build = s.build := by
  unfold hearSource; split <;> rfl
@[simp] theorem hearSource_erector (src : Nat) (s : State) : (hearSource src s).erector = s.erector := by
  unfold hearSource; split <;> rfl
@[simp] theorem hearSource_drive (src : Nat) (s : State) : (hearSource src s).drive = s.drive := by
  unfold hearSource; split <;> rfl
@[simp] theorem hearSource_screw (src : Nat) (s : State) : (hearSource src s).screw = s.screw := by
  unfold hearSource; split <;> rfl
@[simp] theorem hearSource_train (src : Nat) (s : State) : (hearSource src s).train = s.train := by
  unfold hearSource; split <;> rfl
@[simp] theorem hearSource_grout (src : Nat) (s : State) : (hearSource src s).grout = s.grout := by
  unfold hearSource; split <;> rfl
@[simp] theorem hearSource_records (src : Nat) (s : State) : (hearSource src s).records = s.records := by
  unfold hearSource; split <;> rfl
@[simp] theorem hearSource_clock (src : Nat) (s : State) : (hearSource src s).clock = s.clock := by
  unfold hearSource; split <;> rfl
@[simp] theorem hearSource_out (src : Nat) (s : State) : (hearSource src s).out = s.out := by
  unfold hearSource; split <;> rfl
@[simp] theorem hearSource_pending (src : Nat) (s : State) : (hearSource src s).pending = s.pending := by
  unfold hearSource; split <;> rfl
@[simp] theorem hearSource_bus_queue (src : Nat) (s : State) : (hearSource src s).bus.queue = s.bus.queue := by
  unfold hearSource; split <;> rfl
@[simp] theorem hearSource_bus_offer (src : Nat) (s : State) : (hearSource src s).bus.offer = s.bus.offer := by
  unfold hearSource; split <;> rfl
@[simp] theorem hearSource_bus_faults (src : Nat) (s : State) : (hearSource src s).bus.faults = s.bus.faults := by
  unfold hearSource; split <;> rfl
@[simp] theorem hearSource_bus_lineFault (src : Nat) (s : State) : (hearSource src s).bus.lineFault = s.bus.lineFault := by
  unfold hearSource; split <;> rfl
@[simp] theorem hearSource_bus_renewal (src : Nat) (s : State) : (hearSource src s).bus.renewal = s.bus.renewal := by
  unfold hearSource; split <;> rfl
@[simp] theorem hearSource_bus_page (src : Nat) (s : State) : (hearSource src s).bus.page = s.bus.page := by
  unfold hearSource; split <;> rfl
theorem hearSource_bus_lastSource (src : Nat) (s : State) :
    (hearSource src s).bus.lastSource = if src < s.cfg.n then some src else s.bus.lastSource := by
  unfold hearSource; split <;> rfl

/-! ### Fields that `enqueue` leaves alone -/

@[simp] theorem enqueue_life (n : TxNotice) (s : State) : (enqueue n s).life = s.life := rfl
@[simp] theorem enqueue_own (n : TxNotice) (s : State) : (enqueue n s).own = s.own := rfl
@[simp] theorem enqueue_cfg (n : TxNotice) (s : State) : (enqueue n s).cfg = s.cfg := rfl
@[simp] theorem enqueue_configClamped (n : TxNotice) (s : State) :
    (enqueue n s).configClamped = s.configClamped := rfl
@[simp] theorem enqueue_listen (n : TxNotice) (s : State) : (enqueue n s).listen = s.listen := rfl
@[simp] theorem enqueue_probe (n : TxNotice) (s : State) : (enqueue n s).probe = s.probe := rfl
@[simp] theorem enqueue_clock (n : TxNotice) (s : State) : (enqueue n s).clock = s.clock := rfl
@[simp] theorem enqueue_inputs (n : TxNotice) (s : State) : (enqueue n s).inputs = s.inputs := rfl
@[simp] theorem enqueue_view (n : TxNotice) (s : State) : (enqueue n s).view = s.view := rfl
@[simp] theorem enqueue_thrust (n : TxNotice) (s : State) : (enqueue n s).thrust = s.thrust := rfl
@[simp] theorem enqueue_build (n : TxNotice) (s : State) : (enqueue n s).build = s.build := rfl
@[simp] theorem enqueue_erector (n : TxNotice) (s : State) : (enqueue n s).erector = s.erector := rfl
@[simp] theorem enqueue_drive (n : TxNotice) (s : State) : (enqueue n s).drive = s.drive := rfl
@[simp] theorem enqueue_screw (n : TxNotice) (s : State) : (enqueue n s).screw = s.screw := rfl
@[simp] theorem enqueue_train (n : TxNotice) (s : State) : (enqueue n s).train = s.train := rfl
@[simp] theorem enqueue_grout (n : TxNotice) (s : State) : (enqueue n s).grout = s.grout := rfl
@[simp] theorem enqueue_records (n : TxNotice) (s : State) : (enqueue n s).records = s.records := rfl
@[simp] theorem enqueue_out (n : TxNotice) (s : State) : (enqueue n s).out = s.out := rfl
@[simp] theorem enqueue_pending (n : TxNotice) (s : State) : (enqueue n s).pending = s.pending := rfl
@[simp] theorem enqueue_bus_offer (n : TxNotice) (s : State) : (enqueue n s).bus.offer = s.bus.offer := rfl
@[simp] theorem enqueue_bus_lastSource (n : TxNotice) (s : State) :
    (enqueue n s).bus.lastSource = s.bus.lastSource := rfl
@[simp] theorem enqueue_bus_faults (n : TxNotice) (s : State) : (enqueue n s).bus.faults = s.bus.faults := rfl
@[simp] theorem enqueue_bus_lineFault (n : TxNotice) (s : State) :
    (enqueue n s).bus.lineFault = s.bus.lineFault := rfl
@[simp] theorem enqueue_bus_renewal (n : TxNotice) (s : State) : (enqueue n s).bus.renewal = s.bus.renewal := rfl
@[simp] theorem enqueue_bus_page (n : TxNotice) (s : State) : (enqueue n s).bus.page = s.bus.page := rfl

/-! ### Fields that `setMode` leaves alone -/

@[simp] theorem setMode_life (m : GroupMode) (s : State) : (setMode m s).life = s.life := rfl
@[simp] theorem setMode_own (m : GroupMode) (s : State) : (setMode m s).own = s.own := rfl
@[simp] theorem setMode_cfg (m : GroupMode) (s : State) : (setMode m s).cfg = s.cfg := rfl
@[simp] theorem setMode_configClamped (m : GroupMode) (s : State) :
    (setMode m s).configClamped = s.configClamped := rfl
@[simp] theorem setMode_listen (m : GroupMode) (s : State) : (setMode m s).listen = s.listen := rfl
@[simp] theorem setMode_probe (m : GroupMode) (s : State) : (setMode m s).probe = s.probe := rfl
@[simp] theorem setMode_clock (m : GroupMode) (s : State) : (setMode m s).clock = s.clock := rfl
@[simp] theorem setMode_inputs (m : GroupMode) (s : State) : (setMode m s).inputs = s.inputs := rfl
@[simp] theorem setMode_view (m : GroupMode) (s : State) : (setMode m s).view = s.view := rfl
@[simp] theorem setMode_erector (m : GroupMode) (s : State) : (setMode m s).erector = s.erector := rfl
@[simp] theorem setMode_drive (m : GroupMode) (s : State) : (setMode m s).drive = s.drive := rfl
@[simp] theorem setMode_screw (m : GroupMode) (s : State) : (setMode m s).screw = s.screw := rfl
@[simp] theorem setMode_train (m : GroupMode) (s : State) : (setMode m s).train = s.train := rfl
@[simp] theorem setMode_grout (m : GroupMode) (s : State) : (setMode m s).grout = s.grout := rfl
@[simp] theorem setMode_records (m : GroupMode) (s : State) : (setMode m s).records = s.records := rfl
@[simp] theorem setMode_bus (m : GroupMode) (s : State) : (setMode m s).bus = s.bus := rfl
@[simp] theorem setMode_out (m : GroupMode) (s : State) : (setMode m s).out = s.out := rfl
@[simp] theorem setMode_pending (m : GroupMode) (s : State) : (setMode m s).pending = s.pending := rfl
@[simp] theorem setMode_thrust_advance (m : GroupMode) (s : State) :
    (setMode m s).thrust.advance = s.thrust.advance := rfl
@[simp] theorem setMode_thrust_holds (m : GroupMode) (s : State) : (setMode m s).thrust.holds = s.thrust.holds := rfl
@[simp] theorem setMode_thrust_vlim (m : GroupMode) (s : State) : (setMode m s).thrust.vlim = s.thrust.vlim := rfl
@[simp] theorem setMode_thrust_vmax (m : GroupMode) (s : State) : (setMode m s).thrust.vmax = s.thrust.vmax := rfl
@[simp] theorem setMode_thrust_pmax (m : GroupMode) (s : State) : (setMode m s).thrust.pmax = s.thrust.pmax := rfl
@[simp] theorem setMode_build_state (m : GroupMode) (s : State) : (setMode m s).build.state = s.build.state := rfl
@[simp] theorem setMode_build_planRing (m : GroupMode) (s : State) :
    (setMode m s).build.planRing = s.build.planRing := rfl
@[simp] theorem setMode_build_entries (m : GroupMode) (s : State) :
    (setMode m s).build.entries = s.build.entries := rfl
@[simp] theorem setMode_build_index (m : GroupMode) (s : State) : (setMode m s).build.index = s.build.index := rfl
@[simp] theorem setMode_build_margin (m : GroupMode) (s : State) : (setMode m s).build.margin = s.build.margin := rfl
@[simp] theorem setMode_build_retry (m : GroupMode) (s : State) : (setMode m s).build.retry = s.build.retry := rfl
@[simp] theorem setMode_build_planMismatch (m : GroupMode) (s : State) :
    (setMode m s).build.planMismatch = s.build.planMismatch := rfl

/-! ### Fields that `onBuildPart` leaves alone -/

@[simp] theorem onBuildPart_life (f : BuildPart → BuildPart) (s : State) : (onBuildPart f s).life = s.life := rfl
@[simp] theorem onBuildPart_own (f : BuildPart → BuildPart) (s : State) : (onBuildPart f s).own = s.own := rfl
@[simp] theorem onBuildPart_cfg (f : BuildPart → BuildPart) (s : State) : (onBuildPart f s).cfg = s.cfg := rfl
@[simp] theorem onBuildPart_configClamped (f : BuildPart → BuildPart) (s : State) :
    (onBuildPart f s).configClamped = s.configClamped := rfl
@[simp] theorem onBuildPart_listen (f : BuildPart → BuildPart) (s : State) :
    (onBuildPart f s).listen = s.listen := rfl
@[simp] theorem onBuildPart_probe (f : BuildPart → BuildPart) (s : State) : (onBuildPart f s).probe = s.probe := rfl
@[simp] theorem onBuildPart_clock (f : BuildPart → BuildPart) (s : State) : (onBuildPart f s).clock = s.clock := rfl
@[simp] theorem onBuildPart_inputs (f : BuildPart → BuildPart) (s : State) :
    (onBuildPart f s).inputs = s.inputs := rfl
@[simp] theorem onBuildPart_view (f : BuildPart → BuildPart) (s : State) : (onBuildPart f s).view = s.view := rfl
@[simp] theorem onBuildPart_thrust (f : BuildPart → BuildPart) (s : State) :
    (onBuildPart f s).thrust = s.thrust := rfl
@[simp] theorem onBuildPart_build (f : BuildPart → BuildPart) (s : State) : (onBuildPart f s).build = s.build := rfl
@[simp] theorem onBuildPart_erector (f : BuildPart → BuildPart) (s : State) :
    (onBuildPart f s).erector = s.erector := rfl
@[simp] theorem onBuildPart_drive (f : BuildPart → BuildPart) (s : State) : (onBuildPart f s).drive = s.drive := rfl
@[simp] theorem onBuildPart_screw (f : BuildPart → BuildPart) (s : State) : (onBuildPart f s).screw = s.screw := rfl
@[simp] theorem onBuildPart_train (f : BuildPart → BuildPart) (s : State) : (onBuildPart f s).train = s.train := rfl
@[simp] theorem onBuildPart_grout (f : BuildPart → BuildPart) (s : State) : (onBuildPart f s).grout = s.grout := rfl
@[simp] theorem onBuildPart_bus (f : BuildPart → BuildPart) (s : State) : (onBuildPart f s).bus = s.bus := rfl
@[simp] theorem onBuildPart_out (f : BuildPart → BuildPart) (s : State) : (onBuildPart f s).out = s.out := rfl
@[simp] theorem onBuildPart_pending (f : BuildPart → BuildPart) (s : State) :
    (onBuildPart f s).pending = s.pending := rfl
@[simp] theorem onBuildPart_records_ring (f : BuildPart → BuildPart) (s : State) :
    (onBuildPart f s).records.ring = s.records.ring := rfl
@[simp] theorem onBuildPart_records_history (f : BuildPart → BuildPart) (s : State) :
    (onBuildPart f s).records.history = s.records.history := rfl
@[simp] theorem onBuildPart_records_limits (f : BuildPart → BuildPart) (s : State) :
    (onBuildPart f s).records.limits = s.records.limits := rfl
@[simp] theorem onBuildPart_records_waitingLimits (f : BuildPart → BuildPart) (s : State) :
    (onBuildPart f s).records.waitingLimits = s.records.waitingLimits := rfl
@[simp] theorem onBuildPart_records_current_ring (f : BuildPart → BuildPart) (s : State) :
    (onBuildPart f s).records.current.ring = s.records.current.ring := rfl
@[simp] theorem onBuildPart_records_current_cause (f : BuildPart → BuildPart) (s : State) :
    (onBuildPart f s).records.current.cause = s.records.current.cause := rfl
@[simp] theorem onBuildPart_records_current_ownAdvance (f : BuildPart → BuildPart) (s : State) :
    (onBuildPart f s).records.current.ownAdvance = s.records.current.ownAdvance := rfl
@[simp] theorem onBuildPart_records_current_machineAdvance (f : BuildPart → BuildPart) (s : State) :
    (onBuildPart f s).records.current.machineAdvance = s.records.current.machineAdvance := rfl
@[simp] theorem onBuildPart_records_current_advanceSeconds (f : BuildPart → BuildPart) (s : State) :
    (onBuildPart f s).records.current.advanceSeconds = s.records.current.advanceSeconds := rfl
@[simp] theorem onBuildPart_records_current_buildSeconds (f : BuildPart → BuildPart) (s : State) :
    (onBuildPart f s).records.current.buildSeconds = s.records.current.buildSeconds := rfl
@[simp] theorem onBuildPart_records_current_peakForce (f : BuildPart → BuildPart) (s : State) :
    (onBuildPart f s).records.current.peakForce = s.records.current.peakForce := rfl
@[simp] theorem onBuildPart_records_current_advanceAtLimit (f : BuildPart → BuildPart) (s : State) :
    (onBuildPart f s).records.current.advanceAtLimit = s.records.current.advanceAtLimit := rfl
@[simp] theorem onBuildPart_records_current_drive (f : BuildPart → BuildPart) (s : State) :
    (onBuildPart f s).records.current.drive = s.records.current.drive := rfl
@[simp] theorem onBuildPart_records_current_grout (f : BuildPart → BuildPart) (s : State) :
    (onBuildPart f s).records.current.grout = s.records.current.grout := rfl
@[simp] theorem onBuildPart_records_current_spoil (f : BuildPart → BuildPart) (s : State) :
    (onBuildPart f s).records.current.spoil = s.records.current.spoil := rfl

/-! ### Fields that `onSpoilPart` leaves alone -/

@[simp] theorem onSpoilPart_life (f : SpoilPart → SpoilPart) (s : State) : (onSpoilPart f s).life = s.life := rfl
@[simp] theorem onSpoilPart_own (f : SpoilPart → SpoilPart) (s : State) : (onSpoilPart f s).own = s.own := rfl
@[simp] theorem onSpoilPart_cfg (f : SpoilPart → SpoilPart) (s : State) : (onSpoilPart f s).cfg = s.cfg := rfl
@[simp] theorem onSpoilPart_configClamped (f : SpoilPart → SpoilPart) (s : State) :
    (onSpoilPart f s).configClamped = s.configClamped := rfl
@[simp] theorem onSpoilPart_listen (f : SpoilPart → SpoilPart) (s : State) :
    (onSpoilPart f s).listen = s.listen := rfl
@[simp] theorem onSpoilPart_probe (f : SpoilPart → SpoilPart) (s : State) : (onSpoilPart f s).probe = s.probe := rfl
@[simp] theorem onSpoilPart_clock (f : SpoilPart → SpoilPart) (s : State) : (onSpoilPart f s).clock = s.clock := rfl
@[simp] theorem onSpoilPart_inputs (f : SpoilPart → SpoilPart) (s : State) :
    (onSpoilPart f s).inputs = s.inputs := rfl
@[simp] theorem onSpoilPart_view (f : SpoilPart → SpoilPart) (s : State) : (onSpoilPart f s).view = s.view := rfl
@[simp] theorem onSpoilPart_thrust (f : SpoilPart → SpoilPart) (s : State) :
    (onSpoilPart f s).thrust = s.thrust := rfl
@[simp] theorem onSpoilPart_build (f : SpoilPart → SpoilPart) (s : State) : (onSpoilPart f s).build = s.build := rfl
@[simp] theorem onSpoilPart_erector (f : SpoilPart → SpoilPart) (s : State) :
    (onSpoilPart f s).erector = s.erector := rfl
@[simp] theorem onSpoilPart_drive (f : SpoilPart → SpoilPart) (s : State) : (onSpoilPart f s).drive = s.drive := rfl
@[simp] theorem onSpoilPart_screw (f : SpoilPart → SpoilPart) (s : State) : (onSpoilPart f s).screw = s.screw := rfl
@[simp] theorem onSpoilPart_train (f : SpoilPart → SpoilPart) (s : State) : (onSpoilPart f s).train = s.train := rfl
@[simp] theorem onSpoilPart_grout (f : SpoilPart → SpoilPart) (s : State) : (onSpoilPart f s).grout = s.grout := rfl
@[simp] theorem onSpoilPart_bus (f : SpoilPart → SpoilPart) (s : State) : (onSpoilPart f s).bus = s.bus := rfl
@[simp] theorem onSpoilPart_out (f : SpoilPart → SpoilPart) (s : State) : (onSpoilPart f s).out = s.out := rfl
@[simp] theorem onSpoilPart_pending (f : SpoilPart → SpoilPart) (s : State) :
    (onSpoilPart f s).pending = s.pending := rfl
@[simp] theorem onSpoilPart_records_ring (f : SpoilPart → SpoilPart) (s : State) :
    (onSpoilPart f s).records.ring = s.records.ring := rfl
@[simp] theorem onSpoilPart_records_history (f : SpoilPart → SpoilPart) (s : State) :
    (onSpoilPart f s).records.history = s.records.history := rfl
@[simp] theorem onSpoilPart_records_limits (f : SpoilPart → SpoilPart) (s : State) :
    (onSpoilPart f s).records.limits = s.records.limits := rfl
@[simp] theorem onSpoilPart_records_waitingLimits (f : SpoilPart → SpoilPart) (s : State) :
    (onSpoilPart f s).records.waitingLimits = s.records.waitingLimits := rfl
@[simp] theorem onSpoilPart_records_current_ring (f : SpoilPart → SpoilPart) (s : State) :
    (onSpoilPart f s).records.current.ring = s.records.current.ring := rfl
@[simp] theorem onSpoilPart_records_current_cause (f : SpoilPart → SpoilPart) (s : State) :
    (onSpoilPart f s).records.current.cause = s.records.current.cause := rfl
@[simp] theorem onSpoilPart_records_current_ownAdvance (f : SpoilPart → SpoilPart) (s : State) :
    (onSpoilPart f s).records.current.ownAdvance = s.records.current.ownAdvance := rfl
@[simp] theorem onSpoilPart_records_current_machineAdvance (f : SpoilPart → SpoilPart) (s : State) :
    (onSpoilPart f s).records.current.machineAdvance = s.records.current.machineAdvance := rfl
@[simp] theorem onSpoilPart_records_current_advanceSeconds (f : SpoilPart → SpoilPart) (s : State) :
    (onSpoilPart f s).records.current.advanceSeconds = s.records.current.advanceSeconds := rfl
@[simp] theorem onSpoilPart_records_current_buildSeconds (f : SpoilPart → SpoilPart) (s : State) :
    (onSpoilPart f s).records.current.buildSeconds = s.records.current.buildSeconds := rfl
@[simp] theorem onSpoilPart_records_current_peakForce (f : SpoilPart → SpoilPart) (s : State) :
    (onSpoilPart f s).records.current.peakForce = s.records.current.peakForce := rfl
@[simp] theorem onSpoilPart_records_current_advanceAtLimit (f : SpoilPart → SpoilPart) (s : State) :
    (onSpoilPart f s).records.current.advanceAtLimit = s.records.current.advanceAtLimit := rfl
@[simp] theorem onSpoilPart_records_current_drive (f : SpoilPart → SpoilPart) (s : State) :
    (onSpoilPart f s).records.current.drive = s.records.current.drive := rfl
@[simp] theorem onSpoilPart_records_current_grout (f : SpoilPart → SpoilPart) (s : State) :
    (onSpoilPart f s).records.current.grout = s.records.current.grout := rfl
@[simp] theorem onSpoilPart_records_current_build (f : SpoilPart → SpoilPart) (s : State) :
    (onSpoilPart f s).records.current.build = s.records.current.build := rfl

/-! ### Fields that `onGroutPart` leaves alone -/

@[simp] theorem onGroutPart_life (f : GroutPart → GroutPart) (s : State) : (onGroutPart f s).life = s.life := rfl
@[simp] theorem onGroutPart_own (f : GroutPart → GroutPart) (s : State) : (onGroutPart f s).own = s.own := rfl
@[simp] theorem onGroutPart_cfg (f : GroutPart → GroutPart) (s : State) : (onGroutPart f s).cfg = s.cfg := rfl
@[simp] theorem onGroutPart_configClamped (f : GroutPart → GroutPart) (s : State) :
    (onGroutPart f s).configClamped = s.configClamped := rfl
@[simp] theorem onGroutPart_listen (f : GroutPart → GroutPart) (s : State) :
    (onGroutPart f s).listen = s.listen := rfl
@[simp] theorem onGroutPart_probe (f : GroutPart → GroutPart) (s : State) : (onGroutPart f s).probe = s.probe := rfl
@[simp] theorem onGroutPart_clock (f : GroutPart → GroutPart) (s : State) : (onGroutPart f s).clock = s.clock := rfl
@[simp] theorem onGroutPart_inputs (f : GroutPart → GroutPart) (s : State) :
    (onGroutPart f s).inputs = s.inputs := rfl
@[simp] theorem onGroutPart_view (f : GroutPart → GroutPart) (s : State) : (onGroutPart f s).view = s.view := rfl
@[simp] theorem onGroutPart_thrust (f : GroutPart → GroutPart) (s : State) :
    (onGroutPart f s).thrust = s.thrust := rfl
@[simp] theorem onGroutPart_build (f : GroutPart → GroutPart) (s : State) : (onGroutPart f s).build = s.build := rfl
@[simp] theorem onGroutPart_erector (f : GroutPart → GroutPart) (s : State) :
    (onGroutPart f s).erector = s.erector := rfl
@[simp] theorem onGroutPart_drive (f : GroutPart → GroutPart) (s : State) : (onGroutPart f s).drive = s.drive := rfl
@[simp] theorem onGroutPart_screw (f : GroutPart → GroutPart) (s : State) : (onGroutPart f s).screw = s.screw := rfl
@[simp] theorem onGroutPart_train (f : GroutPart → GroutPart) (s : State) : (onGroutPart f s).train = s.train := rfl
@[simp] theorem onGroutPart_grout (f : GroutPart → GroutPart) (s : State) : (onGroutPart f s).grout = s.grout := rfl
@[simp] theorem onGroutPart_bus (f : GroutPart → GroutPart) (s : State) : (onGroutPart f s).bus = s.bus := rfl
@[simp] theorem onGroutPart_out (f : GroutPart → GroutPart) (s : State) : (onGroutPart f s).out = s.out := rfl
@[simp] theorem onGroutPart_pending (f : GroutPart → GroutPart) (s : State) :
    (onGroutPart f s).pending = s.pending := rfl
@[simp] theorem onGroutPart_records_ring (f : GroutPart → GroutPart) (s : State) :
    (onGroutPart f s).records.ring = s.records.ring := rfl
@[simp] theorem onGroutPart_records_history (f : GroutPart → GroutPart) (s : State) :
    (onGroutPart f s).records.history = s.records.history := rfl
@[simp] theorem onGroutPart_records_limits (f : GroutPart → GroutPart) (s : State) :
    (onGroutPart f s).records.limits = s.records.limits := rfl
@[simp] theorem onGroutPart_records_waitingLimits (f : GroutPart → GroutPart) (s : State) :
    (onGroutPart f s).records.waitingLimits = s.records.waitingLimits := rfl
@[simp] theorem onGroutPart_records_current_ring (f : GroutPart → GroutPart) (s : State) :
    (onGroutPart f s).records.current.ring = s.records.current.ring := rfl
@[simp] theorem onGroutPart_records_current_cause (f : GroutPart → GroutPart) (s : State) :
    (onGroutPart f s).records.current.cause = s.records.current.cause := rfl
@[simp] theorem onGroutPart_records_current_ownAdvance (f : GroutPart → GroutPart) (s : State) :
    (onGroutPart f s).records.current.ownAdvance = s.records.current.ownAdvance := rfl
@[simp] theorem onGroutPart_records_current_machineAdvance (f : GroutPart → GroutPart) (s : State) :
    (onGroutPart f s).records.current.machineAdvance = s.records.current.machineAdvance := rfl
@[simp] theorem onGroutPart_records_current_advanceSeconds (f : GroutPart → GroutPart) (s : State) :
    (onGroutPart f s).records.current.advanceSeconds = s.records.current.advanceSeconds := rfl
@[simp] theorem onGroutPart_records_current_buildSeconds (f : GroutPart → GroutPart) (s : State) :
    (onGroutPart f s).records.current.buildSeconds = s.records.current.buildSeconds := rfl
@[simp] theorem onGroutPart_records_current_peakForce (f : GroutPart → GroutPart) (s : State) :
    (onGroutPart f s).records.current.peakForce = s.records.current.peakForce := rfl
@[simp] theorem onGroutPart_records_current_advanceAtLimit (f : GroutPart → GroutPart) (s : State) :
    (onGroutPart f s).records.current.advanceAtLimit = s.records.current.advanceAtLimit := rfl
@[simp] theorem onGroutPart_records_current_drive (f : GroutPart → GroutPart) (s : State) :
    (onGroutPart f s).records.current.drive = s.records.current.drive := rfl
@[simp] theorem onGroutPart_records_current_spoil (f : GroutPart → GroutPart) (s : State) :
    (onGroutPart f s).records.current.spoil = s.records.current.spoil := rfl
@[simp] theorem onGroutPart_records_current_build (f : GroutPart → GroutPart) (s : State) :
    (onGroutPart f s).records.current.build = s.records.current.build := rfl

/-! ### Fields that `raiseMismatch` leaves alone -/

@[simp] theorem raiseMismatch_life (s : State) : (raiseMismatch s).life = s.life := rfl
@[simp] theorem raiseMismatch_own (s : State) : (raiseMismatch s).own = s.own := rfl
@[simp] theorem raiseMismatch_cfg (s : State) : (raiseMismatch s).cfg = s.cfg := rfl
@[simp] theorem raiseMismatch_configClamped (s : State) : (raiseMismatch s).configClamped = s.configClamped := rfl
@[simp] theorem raiseMismatch_listen (s : State) : (raiseMismatch s).listen = s.listen := rfl
@[simp] theorem raiseMismatch_probe (s : State) : (raiseMismatch s).probe = s.probe := rfl
@[simp] theorem raiseMismatch_clock (s : State) : (raiseMismatch s).clock = s.clock := rfl
@[simp] theorem raiseMismatch_inputs (s : State) : (raiseMismatch s).inputs = s.inputs := rfl
@[simp] theorem raiseMismatch_view (s : State) : (raiseMismatch s).view = s.view := rfl
@[simp] theorem raiseMismatch_thrust (s : State) : (raiseMismatch s).thrust = s.thrust := rfl
@[simp] theorem raiseMismatch_erector (s : State) : (raiseMismatch s).erector = s.erector := rfl
@[simp] theorem raiseMismatch_drive (s : State) : (raiseMismatch s).drive = s.drive := rfl
@[simp] theorem raiseMismatch_screw (s : State) : (raiseMismatch s).screw = s.screw := rfl
@[simp] theorem raiseMismatch_train (s : State) : (raiseMismatch s).train = s.train := rfl
@[simp] theorem raiseMismatch_grout (s : State) : (raiseMismatch s).grout = s.grout := rfl
@[simp] theorem raiseMismatch_records (s : State) : (raiseMismatch s).records = s.records := rfl
@[simp] theorem raiseMismatch_bus (s : State) : (raiseMismatch s).bus = s.bus := rfl
@[simp] theorem raiseMismatch_out (s : State) : (raiseMismatch s).out = s.out := rfl
@[simp] theorem raiseMismatch_pending (s : State) : (raiseMismatch s).pending = s.pending := rfl
@[simp] theorem raiseMismatch_build_state (s : State) : (raiseMismatch s).build.state = s.build.state := rfl
@[simp] theorem raiseMismatch_build_planRing (s : State) : (raiseMismatch s).build.planRing = s.build.planRing := rfl
@[simp] theorem raiseMismatch_build_entries (s : State) : (raiseMismatch s).build.entries = s.build.entries := rfl
@[simp] theorem raiseMismatch_build_index (s : State) : (raiseMismatch s).build.index = s.build.index := rfl
@[simp] theorem raiseMismatch_build_margin (s : State) : (raiseMismatch s).build.margin = s.build.margin := rfl
@[simp] theorem raiseMismatch_build_retry (s : State) : (raiseMismatch s).build.retry = s.build.retry := rfl
@[simp] theorem raiseMismatch_build_marginLow (s : State) :
    (raiseMismatch s).build.marginLow = s.build.marginLow := rfl

/-! ### Fields that `setLine` leaves alone -/

@[simp] theorem setLine_life (l : LineState) (s : State) : (setLine l s).life = s.life := rfl
@[simp] theorem setLine_own (l : LineState) (s : State) : (setLine l s).own = s.own := rfl
@[simp] theorem setLine_cfg (l : LineState) (s : State) : (setLine l s).cfg = s.cfg := rfl
@[simp] theorem setLine_configClamped (l : LineState) (s : State) :
    (setLine l s).configClamped = s.configClamped := rfl
@[simp] theorem setLine_listen (l : LineState) (s : State) : (setLine l s).listen = s.listen := rfl
@[simp] theorem setLine_probe (l : LineState) (s : State) : (setLine l s).probe = s.probe := rfl
@[simp] theorem setLine_clock (l : LineState) (s : State) : (setLine l s).clock = s.clock := rfl
@[simp] theorem setLine_inputs (l : LineState) (s : State) : (setLine l s).inputs = s.inputs := rfl
@[simp] theorem setLine_view (l : LineState) (s : State) : (setLine l s).view = s.view := rfl
@[simp] theorem setLine_thrust (l : LineState) (s : State) : (setLine l s).thrust = s.thrust := rfl
@[simp] theorem setLine_build (l : LineState) (s : State) : (setLine l s).build = s.build := rfl
@[simp] theorem setLine_erector (l : LineState) (s : State) : (setLine l s).erector = s.erector := rfl
@[simp] theorem setLine_drive (l : LineState) (s : State) : (setLine l s).drive = s.drive := rfl
@[simp] theorem setLine_screw (l : LineState) (s : State) : (setLine l s).screw = s.screw := rfl
@[simp] theorem setLine_train (l : LineState) (s : State) : (setLine l s).train = s.train := rfl
@[simp] theorem setLine_records (l : LineState) (s : State) : (setLine l s).records = s.records := rfl
@[simp] theorem setLine_bus (l : LineState) (s : State) : (setLine l s).bus = s.bus := rfl
@[simp] theorem setLine_out (l : LineState) (s : State) : (setLine l s).out = s.out := rfl
@[simp] theorem setLine_pending (l : LineState) (s : State) : (setLine l s).pending = s.pending := rfl
@[simp] theorem setLine_grout_active (l : LineState) (s : State) : (setLine l s).grout.active = s.grout.active := rfl
@[simp] theorem setLine_grout_waiting (l : LineState) (s : State) :
    (setLine l s).grout.waiting = s.grout.waiting := rfl
@[simp] theorem setLine_grout_tail (l : LineState) (s : State) : (setLine l s).grout.tail = s.grout.tail := rfl
@[simp] theorem setLine_grout_sample (l : LineState) (s : State) : (setLine l s).grout.sample = s.grout.sample := rfl
@[simp] theorem setLine_grout_strokes (l : LineState) (s : State) :
    (setLine l s).grout.strokes = s.grout.strokes := rfl
@[simp] theorem setLine_grout_volume (l : LineState) (s : State) : (setLine l s).grout.volume = s.grout.volume := rfl
@[simp] theorem setLine_grout_flushStart (l : LineState) (s : State) :
    (setLine l s).grout.flushStart = s.grout.flushStart := rfl
@[simp] theorem setLine_grout_potLife (l : LineState) (s : State) :
    (setLine l s).grout.potLife = s.grout.potLife := rfl
@[simp] theorem setLine_grout_flushTime (l : LineState) (s : State) :
    (setLine l s).grout.flushTime = s.grout.flushTime := rfl
@[simp] theorem setLine_grout_setting (l : LineState) (s : State) :
    (setLine l s).grout.setting = s.grout.setting := rfl
@[simp] theorem setLine_grout_gmin (l : LineState) (s : State) : (setLine l s).grout.gmin = s.grout.gmin := rfl

/-! ### Fields that `startFlush` leaves alone -/

@[simp] theorem startFlush_life (s : State) : (startFlush s).life = s.life := rfl
@[simp] theorem startFlush_own (s : State) : (startFlush s).own = s.own := rfl
@[simp] theorem startFlush_cfg (s : State) : (startFlush s).cfg = s.cfg := rfl
@[simp] theorem startFlush_configClamped (s : State) : (startFlush s).configClamped = s.configClamped := rfl
@[simp] theorem startFlush_listen (s : State) : (startFlush s).listen = s.listen := rfl
@[simp] theorem startFlush_probe (s : State) : (startFlush s).probe = s.probe := rfl
@[simp] theorem startFlush_clock (s : State) : (startFlush s).clock = s.clock := rfl
@[simp] theorem startFlush_inputs (s : State) : (startFlush s).inputs = s.inputs := rfl
@[simp] theorem startFlush_view (s : State) : (startFlush s).view = s.view := rfl
@[simp] theorem startFlush_thrust (s : State) : (startFlush s).thrust = s.thrust := rfl
@[simp] theorem startFlush_build (s : State) : (startFlush s).build = s.build := rfl
@[simp] theorem startFlush_erector (s : State) : (startFlush s).erector = s.erector := rfl
@[simp] theorem startFlush_drive (s : State) : (startFlush s).drive = s.drive := rfl
@[simp] theorem startFlush_screw (s : State) : (startFlush s).screw = s.screw := rfl
@[simp] theorem startFlush_train (s : State) : (startFlush s).train = s.train := rfl
@[simp] theorem startFlush_records (s : State) : (startFlush s).records = s.records := rfl
@[simp] theorem startFlush_bus (s : State) : (startFlush s).bus = s.bus := rfl
@[simp] theorem startFlush_out (s : State) : (startFlush s).out = s.out := rfl
@[simp] theorem startFlush_pending (s : State) : (startFlush s).pending = s.pending := rfl
@[simp] theorem startFlush_grout_active (s : State) : (startFlush s).grout.active = s.grout.active := rfl
@[simp] theorem startFlush_grout_waiting (s : State) : (startFlush s).grout.waiting = s.grout.waiting := rfl
@[simp] theorem startFlush_grout_tail (s : State) : (startFlush s).grout.tail = s.grout.tail := rfl
@[simp] theorem startFlush_grout_sample (s : State) : (startFlush s).grout.sample = s.grout.sample := rfl
@[simp] theorem startFlush_grout_strokes (s : State) : (startFlush s).grout.strokes = s.grout.strokes := rfl
@[simp] theorem startFlush_grout_volume (s : State) : (startFlush s).grout.volume = s.grout.volume := rfl
@[simp] theorem startFlush_grout_potLife (s : State) : (startFlush s).grout.potLife = s.grout.potLife := rfl
@[simp] theorem startFlush_grout_flushTime (s : State) : (startFlush s).grout.flushTime = s.grout.flushTime := rfl
@[simp] theorem startFlush_grout_setting (s : State) : (startFlush s).grout.setting = s.grout.setting := rfl
@[simp] theorem startFlush_grout_gmin (s : State) : (startFlush s).grout.gmin = s.grout.gmin := rfl

/-! ### Fields that `endFlush` leaves alone -/

@[simp] theorem endFlush_life (s : State) : (endFlush s).life = s.life := rfl
@[simp] theorem endFlush_own (s : State) : (endFlush s).own = s.own := rfl
@[simp] theorem endFlush_cfg (s : State) : (endFlush s).cfg = s.cfg := rfl
@[simp] theorem endFlush_configClamped (s : State) : (endFlush s).configClamped = s.configClamped := rfl
@[simp] theorem endFlush_listen (s : State) : (endFlush s).listen = s.listen := rfl
@[simp] theorem endFlush_probe (s : State) : (endFlush s).probe = s.probe := rfl
@[simp] theorem endFlush_clock (s : State) : (endFlush s).clock = s.clock := rfl
@[simp] theorem endFlush_inputs (s : State) : (endFlush s).inputs = s.inputs := rfl
@[simp] theorem endFlush_view (s : State) : (endFlush s).view = s.view := rfl
@[simp] theorem endFlush_thrust (s : State) : (endFlush s).thrust = s.thrust := rfl
@[simp] theorem endFlush_build (s : State) : (endFlush s).build = s.build := rfl
@[simp] theorem endFlush_erector (s : State) : (endFlush s).erector = s.erector := rfl
@[simp] theorem endFlush_drive (s : State) : (endFlush s).drive = s.drive := rfl
@[simp] theorem endFlush_screw (s : State) : (endFlush s).screw = s.screw := rfl
@[simp] theorem endFlush_train (s : State) : (endFlush s).train = s.train := rfl
@[simp] theorem endFlush_records (s : State) : (endFlush s).records = s.records := rfl
@[simp] theorem endFlush_bus (s : State) : (endFlush s).bus = s.bus := rfl
@[simp] theorem endFlush_out (s : State) : (endFlush s).out = s.out := rfl
@[simp] theorem endFlush_pending (s : State) : (endFlush s).pending = s.pending := rfl
@[simp] theorem endFlush_grout_active (s : State) : (endFlush s).grout.active = s.grout.active := rfl
@[simp] theorem endFlush_grout_waiting (s : State) : (endFlush s).grout.waiting = s.grout.waiting := rfl
@[simp] theorem endFlush_grout_tail (s : State) : (endFlush s).grout.tail = s.grout.tail := rfl
@[simp] theorem endFlush_grout_sample (s : State) : (endFlush s).grout.sample = s.grout.sample := rfl
@[simp] theorem endFlush_grout_strokes (s : State) : (endFlush s).grout.strokes = s.grout.strokes := rfl
@[simp] theorem endFlush_grout_volume (s : State) : (endFlush s).grout.volume = s.grout.volume := rfl
@[simp] theorem endFlush_grout_potLife (s : State) : (endFlush s).grout.potLife = s.grout.potLife := rfl
@[simp] theorem endFlush_grout_flushTime (s : State) : (endFlush s).grout.flushTime = s.grout.flushTime := rfl
@[simp] theorem endFlush_grout_gmin (s : State) : (endFlush s).grout.gmin = s.grout.gmin := rfl

/-! ### Fields that `tripLine` leaves alone -/

@[simp] theorem tripLine_life (s : State) : (tripLine s).life = s.life := rfl
@[simp] theorem tripLine_own (s : State) : (tripLine s).own = s.own := rfl
@[simp] theorem tripLine_cfg (s : State) : (tripLine s).cfg = s.cfg := rfl
@[simp] theorem tripLine_configClamped (s : State) : (tripLine s).configClamped = s.configClamped := rfl
@[simp] theorem tripLine_listen (s : State) : (tripLine s).listen = s.listen := rfl
@[simp] theorem tripLine_probe (s : State) : (tripLine s).probe = s.probe := rfl
@[simp] theorem tripLine_clock (s : State) : (tripLine s).clock = s.clock := rfl
@[simp] theorem tripLine_inputs (s : State) : (tripLine s).inputs = s.inputs := rfl
@[simp] theorem tripLine_view (s : State) : (tripLine s).view = s.view := rfl
@[simp] theorem tripLine_thrust (s : State) : (tripLine s).thrust = s.thrust := rfl
@[simp] theorem tripLine_build (s : State) : (tripLine s).build = s.build := rfl
@[simp] theorem tripLine_erector (s : State) : (tripLine s).erector = s.erector := rfl
@[simp] theorem tripLine_drive (s : State) : (tripLine s).drive = s.drive := rfl
@[simp] theorem tripLine_screw (s : State) : (tripLine s).screw = s.screw := rfl
@[simp] theorem tripLine_train (s : State) : (tripLine s).train = s.train := rfl
@[simp] theorem tripLine_bus (s : State) : (tripLine s).bus = s.bus := rfl
@[simp] theorem tripLine_out (s : State) : (tripLine s).out = s.out := rfl
@[simp] theorem tripLine_pending (s : State) : (tripLine s).pending = s.pending := rfl
@[simp] theorem tripLine_grout_active (s : State) : (tripLine s).grout.active = s.grout.active := rfl
@[simp] theorem tripLine_grout_waiting (s : State) : (tripLine s).grout.waiting = s.grout.waiting := rfl
@[simp] theorem tripLine_grout_tail (s : State) : (tripLine s).grout.tail = s.grout.tail := rfl
@[simp] theorem tripLine_grout_sample (s : State) : (tripLine s).grout.sample = s.grout.sample := rfl
@[simp] theorem tripLine_grout_strokes (s : State) : (tripLine s).grout.strokes = s.grout.strokes := rfl
@[simp] theorem tripLine_grout_volume (s : State) : (tripLine s).grout.volume = s.grout.volume := rfl
@[simp] theorem tripLine_grout_potStart (s : State) : (tripLine s).grout.potStart = s.grout.potStart := rfl
@[simp] theorem tripLine_grout_flushStart (s : State) : (tripLine s).grout.flushStart = s.grout.flushStart := rfl
@[simp] theorem tripLine_grout_potLife (s : State) : (tripLine s).grout.potLife = s.grout.potLife := rfl
@[simp] theorem tripLine_grout_flushTime (s : State) : (tripLine s).grout.flushTime = s.grout.flushTime := rfl
@[simp] theorem tripLine_grout_setting (s : State) : (tripLine s).grout.setting = s.grout.setting := rfl
@[simp] theorem tripLine_grout_gmin (s : State) : (tripLine s).grout.gmin = s.grout.gmin := rfl
@[simp] theorem tripLine_records_ring (s : State) : (tripLine s).records.ring = s.records.ring := rfl
@[simp] theorem tripLine_records_history (s : State) : (tripLine s).records.history = s.records.history := rfl
@[simp] theorem tripLine_records_limits (s : State) : (tripLine s).records.limits = s.records.limits := rfl
@[simp] theorem tripLine_records_waitingLimits (s : State) :
    (tripLine s).records.waitingLimits = s.records.waitingLimits := rfl
@[simp] theorem tripLine_records_current_ring (s : State) :
    (tripLine s).records.current.ring = s.records.current.ring := rfl
@[simp] theorem tripLine_records_current_cause (s : State) :
    (tripLine s).records.current.cause = s.records.current.cause := rfl
@[simp] theorem tripLine_records_current_ownAdvance (s : State) :
    (tripLine s).records.current.ownAdvance = s.records.current.ownAdvance := rfl
@[simp] theorem tripLine_records_current_machineAdvance (s : State) :
    (tripLine s).records.current.machineAdvance = s.records.current.machineAdvance := rfl
@[simp] theorem tripLine_records_current_advanceSeconds (s : State) :
    (tripLine s).records.current.advanceSeconds = s.records.current.advanceSeconds := rfl
@[simp] theorem tripLine_records_current_buildSeconds (s : State) :
    (tripLine s).records.current.buildSeconds = s.records.current.buildSeconds := rfl
@[simp] theorem tripLine_records_current_peakForce (s : State) :
    (tripLine s).records.current.peakForce = s.records.current.peakForce := rfl
@[simp] theorem tripLine_records_current_advanceAtLimit (s : State) :
    (tripLine s).records.current.advanceAtLimit = s.records.current.advanceAtLimit := rfl
@[simp] theorem tripLine_records_current_drive (s : State) :
    (tripLine s).records.current.drive = s.records.current.drive := rfl
@[simp] theorem tripLine_records_current_spoil (s : State) :
    (tripLine s).records.current.spoil = s.records.current.spoil := rfl
@[simp] theorem tripLine_records_current_build (s : State) :
    (tripLine s).records.current.build = s.records.current.build := rfl

/-! ### Fields that `stopDrive` leaves alone -/

@[simp] theorem stopDrive_life (s : State) : (stopDrive s).life = s.life := rfl
@[simp] theorem stopDrive_own (s : State) : (stopDrive s).own = s.own := rfl
@[simp] theorem stopDrive_cfg (s : State) : (stopDrive s).cfg = s.cfg := rfl
@[simp] theorem stopDrive_configClamped (s : State) : (stopDrive s).configClamped = s.configClamped := rfl
@[simp] theorem stopDrive_listen (s : State) : (stopDrive s).listen = s.listen := rfl
@[simp] theorem stopDrive_probe (s : State) : (stopDrive s).probe = s.probe := rfl
@[simp] theorem stopDrive_clock (s : State) : (stopDrive s).clock = s.clock := rfl
@[simp] theorem stopDrive_inputs (s : State) : (stopDrive s).inputs = s.inputs := rfl
@[simp] theorem stopDrive_view (s : State) : (stopDrive s).view = s.view := rfl
@[simp] theorem stopDrive_thrust (s : State) : (stopDrive s).thrust = s.thrust := rfl
@[simp] theorem stopDrive_build (s : State) : (stopDrive s).build = s.build := rfl
@[simp] theorem stopDrive_erector (s : State) : (stopDrive s).erector = s.erector := rfl
@[simp] theorem stopDrive_screw (s : State) : (stopDrive s).screw = s.screw := rfl
@[simp] theorem stopDrive_train (s : State) : (stopDrive s).train = s.train := rfl
@[simp] theorem stopDrive_grout (s : State) : (stopDrive s).grout = s.grout := rfl
@[simp] theorem stopDrive_records (s : State) : (stopDrive s).records = s.records := rfl
@[simp] theorem stopDrive_bus (s : State) : (stopDrive s).bus = s.bus := rfl
@[simp] theorem stopDrive_out (s : State) : (stopDrive s).out = s.out := rfl
@[simp] theorem stopDrive_pending (s : State) : (stopDrive s).pending = s.pending := rfl
@[simp] theorem stopDrive_drive_target (s : State) : (stopDrive s).drive.target = s.drive.target := rfl
@[simp] theorem stopDrive_drive_direction (s : State) : (stopDrive s).drive.direction = s.drive.direction := rfl
@[simp] theorem stopDrive_drive_command (s : State) : (stopDrive s).drive.command = s.drive.command := rfl
@[simp] theorem stopDrive_drive_ramp (s : State) : (stopDrive s).drive.ramp = s.drive.ramp := rfl
@[simp] theorem stopDrive_drive_stallLevel (s : State) : (stopDrive s).drive.stallLevel = s.drive.stallLevel := rfl
@[simp] theorem stopDrive_drive_stallTime (s : State) : (stopDrive s).drive.stallTime = s.drive.stallTime := rfl
@[simp] theorem stopDrive_drive_stallStart (s : State) : (stopDrive s).drive.stallStart = s.drive.stallStart := rfl
@[simp] theorem stopDrive_drive_accumulator (s : State) : (stopDrive s).drive.accumulator = s.drive.accumulator := rfl
@[simp] theorem stopDrive_drive_peakTorque (s : State) : (stopDrive s).drive.peakTorque = s.drive.peakTorque := rfl

/-! ### Fields that `driveOff` leaves alone -/

@[simp] theorem driveOff_life (s : State) : (driveOff s).life = s.life := rfl
@[simp] theorem driveOff_own (s : State) : (driveOff s).own = s.own := rfl
@[simp] theorem driveOff_cfg (s : State) : (driveOff s).cfg = s.cfg := rfl
@[simp] theorem driveOff_configClamped (s : State) : (driveOff s).configClamped = s.configClamped := rfl
@[simp] theorem driveOff_listen (s : State) : (driveOff s).listen = s.listen := rfl
@[simp] theorem driveOff_probe (s : State) : (driveOff s).probe = s.probe := rfl
@[simp] theorem driveOff_clock (s : State) : (driveOff s).clock = s.clock := rfl
@[simp] theorem driveOff_inputs (s : State) : (driveOff s).inputs = s.inputs := rfl
@[simp] theorem driveOff_view (s : State) : (driveOff s).view = s.view := rfl
@[simp] theorem driveOff_thrust (s : State) : (driveOff s).thrust = s.thrust := rfl
@[simp] theorem driveOff_build (s : State) : (driveOff s).build = s.build := rfl
@[simp] theorem driveOff_erector (s : State) : (driveOff s).erector = s.erector := rfl
@[simp] theorem driveOff_screw (s : State) : (driveOff s).screw = s.screw := rfl
@[simp] theorem driveOff_train (s : State) : (driveOff s).train = s.train := rfl
@[simp] theorem driveOff_grout (s : State) : (driveOff s).grout = s.grout := rfl
@[simp] theorem driveOff_records (s : State) : (driveOff s).records = s.records := rfl
@[simp] theorem driveOff_bus (s : State) : (driveOff s).bus = s.bus := rfl
@[simp] theorem driveOff_out (s : State) : (driveOff s).out = s.out := rfl
@[simp] theorem driveOff_pending (s : State) : (driveOff s).pending = s.pending := rfl
@[simp] theorem driveOff_drive_target (s : State) : (driveOff s).drive.target = s.drive.target := rfl
@[simp] theorem driveOff_drive_direction (s : State) : (driveOff s).drive.direction = s.drive.direction := rfl
@[simp] theorem driveOff_drive_command (s : State) : (driveOff s).drive.command = s.drive.command := rfl
@[simp] theorem driveOff_drive_ramp (s : State) : (driveOff s).drive.ramp = s.drive.ramp := rfl
@[simp] theorem driveOff_drive_stallLevel (s : State) : (driveOff s).drive.stallLevel = s.drive.stallLevel := rfl
@[simp] theorem driveOff_drive_stallTime (s : State) : (driveOff s).drive.stallTime = s.drive.stallTime := rfl
@[simp] theorem driveOff_drive_accumulator (s : State) : (driveOff s).drive.accumulator = s.drive.accumulator := rfl
@[simp] theorem driveOff_drive_peakTorque (s : State) : (driveOff s).drive.peakTorque = s.drive.peakTorque := rfl

/-! ### Fields that `clockTo` leaves alone -/

@[simp] theorem clockTo_life (n : Nat) (s : State) : (clockTo n s).life = s.life := rfl
@[simp] theorem clockTo_own (n : Nat) (s : State) : (clockTo n s).own = s.own := rfl
@[simp] theorem clockTo_cfg (n : Nat) (s : State) : (clockTo n s).cfg = s.cfg := rfl
@[simp] theorem clockTo_configClamped (n : Nat) (s : State) : (clockTo n s).configClamped = s.configClamped := rfl
@[simp] theorem clockTo_listen (n : Nat) (s : State) : (clockTo n s).listen = s.listen := rfl
@[simp] theorem clockTo_probe (n : Nat) (s : State) : (clockTo n s).probe = s.probe := rfl
@[simp] theorem clockTo_inputs (n : Nat) (s : State) : (clockTo n s).inputs = s.inputs := rfl
@[simp] theorem clockTo_view (n : Nat) (s : State) : (clockTo n s).view = s.view := rfl
@[simp] theorem clockTo_thrust (n : Nat) (s : State) : (clockTo n s).thrust = s.thrust := rfl
@[simp] theorem clockTo_build (n : Nat) (s : State) : (clockTo n s).build = s.build := rfl
@[simp] theorem clockTo_erector (n : Nat) (s : State) : (clockTo n s).erector = s.erector := rfl
@[simp] theorem clockTo_drive (n : Nat) (s : State) : (clockTo n s).drive = s.drive := rfl
@[simp] theorem clockTo_screw (n : Nat) (s : State) : (clockTo n s).screw = s.screw := rfl
@[simp] theorem clockTo_train (n : Nat) (s : State) : (clockTo n s).train = s.train := rfl
@[simp] theorem clockTo_grout (n : Nat) (s : State) : (clockTo n s).grout = s.grout := rfl
@[simp] theorem clockTo_records (n : Nat) (s : State) : (clockTo n s).records = s.records := rfl
@[simp] theorem clockTo_bus (n : Nat) (s : State) : (clockTo n s).bus = s.bus := rfl
@[simp] theorem clockTo_out (n : Nat) (s : State) : (clockTo n s).out = s.out := rfl
@[simp] theorem clockTo_pending (n : Nat) (s : State) : (clockTo n s).pending = s.pending := rfl
@[simp] theorem clockTo_clock_noticeDue (n : Nat) (s : State) :
    (clockTo n s).clock.noticeDue = s.clock.noticeDue := rfl
@[simp] theorem clockTo_clock_controlDue (n : Nat) (s : State) :
    (clockTo n s).clock.controlDue = s.clock.controlDue := rfl
@[simp] theorem clockTo_clock_driveDue (n : Nat) (s : State) : (clockTo n s).clock.driveDue = s.clock.driveDue := rfl

/-! ### Fields that `syncRecord` leaves alone -/

@[simp] theorem syncRecord_life (s : State) : (syncRecord s).life = s.life := rfl
@[simp] theorem syncRecord_own (s : State) : (syncRecord s).own = s.own := rfl
@[simp] theorem syncRecord_cfg (s : State) : (syncRecord s).cfg = s.cfg := rfl
@[simp] theorem syncRecord_configClamped (s : State) : (syncRecord s).configClamped = s.configClamped := rfl
@[simp] theorem syncRecord_listen (s : State) : (syncRecord s).listen = s.listen := rfl
@[simp] theorem syncRecord_probe (s : State) : (syncRecord s).probe = s.probe := rfl
@[simp] theorem syncRecord_clock (s : State) : (syncRecord s).clock = s.clock := rfl
@[simp] theorem syncRecord_inputs (s : State) : (syncRecord s).inputs = s.inputs := rfl
@[simp] theorem syncRecord_view (s : State) : (syncRecord s).view = s.view := rfl
@[simp] theorem syncRecord_thrust (s : State) : (syncRecord s).thrust = s.thrust := rfl
@[simp] theorem syncRecord_build (s : State) : (syncRecord s).build = s.build := rfl
@[simp] theorem syncRecord_erector (s : State) : (syncRecord s).erector = s.erector := rfl
@[simp] theorem syncRecord_drive (s : State) : (syncRecord s).drive = s.drive := rfl
@[simp] theorem syncRecord_screw (s : State) : (syncRecord s).screw = s.screw := rfl
@[simp] theorem syncRecord_train (s : State) : (syncRecord s).train = s.train := rfl
@[simp] theorem syncRecord_grout (s : State) : (syncRecord s).grout = s.grout := rfl
@[simp] theorem syncRecord_bus (s : State) : (syncRecord s).bus = s.bus := rfl
@[simp] theorem syncRecord_out (s : State) : (syncRecord s).out = s.out := rfl
@[simp] theorem syncRecord_pending (s : State) : (syncRecord s).pending = s.pending := rfl
@[simp] theorem syncRecord_records_ring (s : State) : (syncRecord s).records.ring = s.records.ring := rfl
@[simp] theorem syncRecord_records_history (s : State) : (syncRecord s).records.history = s.records.history := rfl
@[simp] theorem syncRecord_records_limits (s : State) : (syncRecord s).records.limits = s.records.limits := rfl
@[simp] theorem syncRecord_records_waitingLimits (s : State) :
    (syncRecord s).records.waitingLimits = s.records.waitingLimits := rfl
@[simp] theorem syncRecord_records_current_ring (s : State) :
    (syncRecord s).records.current.ring = s.records.current.ring := rfl
@[simp] theorem syncRecord_records_current_cause (s : State) :
    (syncRecord s).records.current.cause = s.records.current.cause := rfl
@[simp] theorem syncRecord_records_current_advanceSeconds (s : State) :
    (syncRecord s).records.current.advanceSeconds = s.records.current.advanceSeconds := rfl
@[simp] theorem syncRecord_records_current_buildSeconds (s : State) :
    (syncRecord s).records.current.buildSeconds = s.records.current.buildSeconds := rfl
@[simp] theorem syncRecord_records_current_peakForce (s : State) :
    (syncRecord s).records.current.peakForce = s.records.current.peakForce := rfl
@[simp] theorem syncRecord_records_current_spoil (s : State) :
    (syncRecord s).records.current.spoil = s.records.current.spoil := rfl
@[simp] theorem syncRecord_records_current_build (s : State) :
    (syncRecord s).records.current.build = s.records.current.build := rfl

/-! ### Fields that `accountSpoil` leaves alone -/

@[simp] theorem accountSpoil_life (s : State) : (accountSpoil s).life = s.life := rfl
@[simp] theorem accountSpoil_own (s : State) : (accountSpoil s).own = s.own := rfl
@[simp] theorem accountSpoil_cfg (s : State) : (accountSpoil s).cfg = s.cfg := rfl
@[simp] theorem accountSpoil_configClamped (s : State) : (accountSpoil s).configClamped = s.configClamped := rfl
@[simp] theorem accountSpoil_listen (s : State) : (accountSpoil s).listen = s.listen := rfl
@[simp] theorem accountSpoil_probe (s : State) : (accountSpoil s).probe = s.probe := rfl
@[simp] theorem accountSpoil_clock (s : State) : (accountSpoil s).clock = s.clock := rfl
@[simp] theorem accountSpoil_inputs (s : State) : (accountSpoil s).inputs = s.inputs := rfl
@[simp] theorem accountSpoil_view (s : State) : (accountSpoil s).view = s.view := rfl
@[simp] theorem accountSpoil_thrust (s : State) : (accountSpoil s).thrust = s.thrust := rfl
@[simp] theorem accountSpoil_build (s : State) : (accountSpoil s).build = s.build := rfl
@[simp] theorem accountSpoil_erector (s : State) : (accountSpoil s).erector = s.erector := rfl
@[simp] theorem accountSpoil_drive (s : State) : (accountSpoil s).drive = s.drive := rfl
@[simp] theorem accountSpoil_screw (s : State) : (accountSpoil s).screw = s.screw := rfl
@[simp] theorem accountSpoil_train (s : State) : (accountSpoil s).train = s.train := rfl
@[simp] theorem accountSpoil_grout (s : State) : (accountSpoil s).grout = s.grout := rfl
@[simp] theorem accountSpoil_bus (s : State) : (accountSpoil s).bus = s.bus := rfl
@[simp] theorem accountSpoil_out (s : State) : (accountSpoil s).out = s.out := rfl
@[simp] theorem accountSpoil_pending (s : State) : (accountSpoil s).pending = s.pending := rfl
@[simp] theorem accountSpoil_records_ring (s : State) : (accountSpoil s).records.ring = s.records.ring := rfl
@[simp] theorem accountSpoil_records_history (s : State) : (accountSpoil s).records.history = s.records.history := rfl
@[simp] theorem accountSpoil_records_limits (s : State) : (accountSpoil s).records.limits = s.records.limits := rfl
@[simp] theorem accountSpoil_records_waitingLimits (s : State) :
    (accountSpoil s).records.waitingLimits = s.records.waitingLimits := rfl
@[simp] theorem accountSpoil_records_current_ring (s : State) :
    (accountSpoil s).records.current.ring = s.records.current.ring := rfl
@[simp] theorem accountSpoil_records_current_cause (s : State) :
    (accountSpoil s).records.current.cause = s.records.current.cause := rfl
@[simp] theorem accountSpoil_records_current_ownAdvance (s : State) :
    (accountSpoil s).records.current.ownAdvance = s.records.current.ownAdvance := rfl
@[simp] theorem accountSpoil_records_current_machineAdvance (s : State) :
    (accountSpoil s).records.current.machineAdvance = s.records.current.machineAdvance := rfl
@[simp] theorem accountSpoil_records_current_advanceSeconds (s : State) :
    (accountSpoil s).records.current.advanceSeconds = s.records.current.advanceSeconds := rfl
@[simp] theorem accountSpoil_records_current_buildSeconds (s : State) :
    (accountSpoil s).records.current.buildSeconds = s.records.current.buildSeconds := rfl
@[simp] theorem accountSpoil_records_current_peakForce (s : State) :
    (accountSpoil s).records.current.peakForce = s.records.current.peakForce := rfl
@[simp] theorem accountSpoil_records_current_advanceAtLimit (s : State) :
    (accountSpoil s).records.current.advanceAtLimit = s.records.current.advanceAtLimit := rfl
@[simp] theorem accountSpoil_records_current_drive (s : State) :
    (accountSpoil s).records.current.drive = s.records.current.drive := rfl
@[simp] theorem accountSpoil_records_current_grout (s : State) :
    (accountSpoil s).records.current.grout = s.records.current.grout := rfl
@[simp] theorem accountSpoil_records_current_build (s : State) :
    (accountSpoil s).records.current.build = s.records.current.build := rfl

/-! ### Fields that `judgeOver` leaves alone -/

@[simp] theorem judgeOver_life (j : Bool) (s : State) : (judgeOver j s).life = s.life := rfl
@[simp] theorem judgeOver_own (j : Bool) (s : State) : (judgeOver j s).own = s.own := rfl
@[simp] theorem judgeOver_cfg (j : Bool) (s : State) : (judgeOver j s).cfg = s.cfg := rfl
@[simp] theorem judgeOver_configClamped (j : Bool) (s : State) :
    (judgeOver j s).configClamped = s.configClamped := rfl
@[simp] theorem judgeOver_listen (j : Bool) (s : State) : (judgeOver j s).listen = s.listen := rfl
@[simp] theorem judgeOver_probe (j : Bool) (s : State) : (judgeOver j s).probe = s.probe := rfl
@[simp] theorem judgeOver_clock (j : Bool) (s : State) : (judgeOver j s).clock = s.clock := rfl
@[simp] theorem judgeOver_inputs (j : Bool) (s : State) : (judgeOver j s).inputs = s.inputs := rfl
@[simp] theorem judgeOver_view (j : Bool) (s : State) : (judgeOver j s).view = s.view := rfl
@[simp] theorem judgeOver_thrust (j : Bool) (s : State) : (judgeOver j s).thrust = s.thrust := rfl
@[simp] theorem judgeOver_build (j : Bool) (s : State) : (judgeOver j s).build = s.build := rfl
@[simp] theorem judgeOver_erector (j : Bool) (s : State) : (judgeOver j s).erector = s.erector := rfl
@[simp] theorem judgeOver_drive (j : Bool) (s : State) : (judgeOver j s).drive = s.drive := rfl
@[simp] theorem judgeOver_screw (j : Bool) (s : State) : (judgeOver j s).screw = s.screw := rfl
@[simp] theorem judgeOver_grout (j : Bool) (s : State) : (judgeOver j s).grout = s.grout := rfl
@[simp] theorem judgeOver_records (j : Bool) (s : State) : (judgeOver j s).records = s.records := rfl
@[simp] theorem judgeOver_bus (j : Bool) (s : State) : (judgeOver j s).bus = s.bus := rfl
@[simp] theorem judgeOver_out (j : Bool) (s : State) : (judgeOver j s).out = s.out := rfl
@[simp] theorem judgeOver_pending (j : Bool) (s : State) : (judgeOver j s).pending = s.pending := rfl
@[simp] theorem judgeOver_train_mass (j : Bool) (s : State) : (judgeOver j s).train.mass = s.train.mass := rfl
@[simp] theorem judgeOver_train_overflow (j : Bool) (s : State) :
    (judgeOver j s).train.overflow = s.train.overflow := rfl
@[simp] theorem judgeOver_train_holdLevel (j : Bool) (s : State) :
    (judgeOver j s).train.holdLevel = s.train.holdLevel := rfl
@[simp] theorem judgeOver_train_slowLevel (j : Bool) (s : State) :
    (judgeOver j s).train.slowLevel = s.train.slowLevel := rfl
@[simp] theorem judgeOver_train_pace (j : Bool) (s : State) : (judgeOver j s).train.pace = s.train.pace := rfl
@[simp] theorem judgeOver_train_reasons_train (j : Bool) (s : State) :
    (judgeOver j s).train.reasons.train = s.train.reasons.train := rfl
@[simp] theorem judgeOver_train_reasons_pressureBlind (j : Bool) (s : State) :
    (judgeOver j s).train.reasons.pressureBlind = s.train.reasons.pressureBlind := rfl
@[simp] theorem judgeOver_train_reasons_beltSilent (j : Bool) (s : State) :
    (judgeOver j s).train.reasons.beltSilent = s.train.reasons.beltSilent := rfl
@[simp] theorem judgeOver_train_reasons_noTarget (j : Bool) (s : State) :
    (judgeOver j s).train.reasons.noTarget = s.train.reasons.noTarget := rfl

/-! ### Fields that `groutTotals` leaves alone -/

@[simp] theorem groutTotals_life (s : State) : (groutTotals s).life = s.life := rfl
@[simp] theorem groutTotals_own (s : State) : (groutTotals s).own = s.own := rfl
@[simp] theorem groutTotals_cfg (s : State) : (groutTotals s).cfg = s.cfg := rfl
@[simp] theorem groutTotals_configClamped (s : State) : (groutTotals s).configClamped = s.configClamped := rfl
@[simp] theorem groutTotals_listen (s : State) : (groutTotals s).listen = s.listen := rfl
@[simp] theorem groutTotals_probe (s : State) : (groutTotals s).probe = s.probe := rfl
@[simp] theorem groutTotals_clock (s : State) : (groutTotals s).clock = s.clock := rfl
@[simp] theorem groutTotals_inputs (s : State) : (groutTotals s).inputs = s.inputs := rfl
@[simp] theorem groutTotals_view (s : State) : (groutTotals s).view = s.view := rfl
@[simp] theorem groutTotals_thrust (s : State) : (groutTotals s).thrust = s.thrust := rfl
@[simp] theorem groutTotals_build (s : State) : (groutTotals s).build = s.build := rfl
@[simp] theorem groutTotals_erector (s : State) : (groutTotals s).erector = s.erector := rfl
@[simp] theorem groutTotals_drive (s : State) : (groutTotals s).drive = s.drive := rfl
@[simp] theorem groutTotals_screw (s : State) : (groutTotals s).screw = s.screw := rfl
@[simp] theorem groutTotals_train (s : State) : (groutTotals s).train = s.train := rfl
@[simp] theorem groutTotals_grout (s : State) : (groutTotals s).grout = s.grout := rfl
@[simp] theorem groutTotals_bus (s : State) : (groutTotals s).bus = s.bus := rfl
@[simp] theorem groutTotals_out (s : State) : (groutTotals s).out = s.out := rfl
@[simp] theorem groutTotals_pending (s : State) : (groutTotals s).pending = s.pending := rfl
@[simp] theorem groutTotals_records_ring (s : State) : (groutTotals s).records.ring = s.records.ring := rfl
@[simp] theorem groutTotals_records_history (s : State) : (groutTotals s).records.history = s.records.history := rfl
@[simp] theorem groutTotals_records_limits (s : State) : (groutTotals s).records.limits = s.records.limits := rfl
@[simp] theorem groutTotals_records_waitingLimits (s : State) :
    (groutTotals s).records.waitingLimits = s.records.waitingLimits := rfl
@[simp] theorem groutTotals_records_current_ring (s : State) :
    (groutTotals s).records.current.ring = s.records.current.ring := rfl
@[simp] theorem groutTotals_records_current_cause (s : State) :
    (groutTotals s).records.current.cause = s.records.current.cause := rfl
@[simp] theorem groutTotals_records_current_ownAdvance (s : State) :
    (groutTotals s).records.current.ownAdvance = s.records.current.ownAdvance := rfl
@[simp] theorem groutTotals_records_current_machineAdvance (s : State) :
    (groutTotals s).records.current.machineAdvance = s.records.current.machineAdvance := rfl
@[simp] theorem groutTotals_records_current_advanceSeconds (s : State) :
    (groutTotals s).records.current.advanceSeconds = s.records.current.advanceSeconds := rfl
@[simp] theorem groutTotals_records_current_buildSeconds (s : State) :
    (groutTotals s).records.current.buildSeconds = s.records.current.buildSeconds := rfl
@[simp] theorem groutTotals_records_current_peakForce (s : State) :
    (groutTotals s).records.current.peakForce = s.records.current.peakForce := rfl
@[simp] theorem groutTotals_records_current_advanceAtLimit (s : State) :
    (groutTotals s).records.current.advanceAtLimit = s.records.current.advanceAtLimit := rfl
@[simp] theorem groutTotals_records_current_drive (s : State) :
    (groutTotals s).records.current.drive = s.records.current.drive := rfl
@[simp] theorem groutTotals_records_current_spoil (s : State) :
    (groutTotals s).records.current.spoil = s.records.current.spoil := rfl
@[simp] theorem groutTotals_records_current_build (s : State) :
    (groutTotals s).records.current.build = s.records.current.build := rfl

/-! ### Fields that `fixEntriesSet` leaves alone -/

@[simp] theorem fixEntriesSet_life (s : State) : (fixEntriesSet s).life = s.life := rfl
@[simp] theorem fixEntriesSet_own (s : State) : (fixEntriesSet s).own = s.own := rfl
@[simp] theorem fixEntriesSet_cfg (s : State) : (fixEntriesSet s).cfg = s.cfg := rfl
@[simp] theorem fixEntriesSet_configClamped (s : State) : (fixEntriesSet s).configClamped = s.configClamped := rfl
@[simp] theorem fixEntriesSet_listen (s : State) : (fixEntriesSet s).listen = s.listen := rfl
@[simp] theorem fixEntriesSet_probe (s : State) : (fixEntriesSet s).probe = s.probe := rfl
@[simp] theorem fixEntriesSet_clock (s : State) : (fixEntriesSet s).clock = s.clock := rfl
@[simp] theorem fixEntriesSet_inputs (s : State) : (fixEntriesSet s).inputs = s.inputs := rfl
@[simp] theorem fixEntriesSet_view (s : State) : (fixEntriesSet s).view = s.view := rfl
@[simp] theorem fixEntriesSet_thrust (s : State) : (fixEntriesSet s).thrust = s.thrust := rfl
@[simp] theorem fixEntriesSet_build (s : State) : (fixEntriesSet s).build = s.build := rfl
@[simp] theorem fixEntriesSet_erector (s : State) : (fixEntriesSet s).erector = s.erector := rfl
@[simp] theorem fixEntriesSet_drive (s : State) : (fixEntriesSet s).drive = s.drive := rfl
@[simp] theorem fixEntriesSet_screw (s : State) : (fixEntriesSet s).screw = s.screw := rfl
@[simp] theorem fixEntriesSet_train (s : State) : (fixEntriesSet s).train = s.train := rfl
@[simp] theorem fixEntriesSet_grout (s : State) : (fixEntriesSet s).grout = s.grout := rfl
@[simp] theorem fixEntriesSet_bus (s : State) : (fixEntriesSet s).bus = s.bus := rfl
@[simp] theorem fixEntriesSet_out (s : State) : (fixEntriesSet s).out = s.out := rfl
@[simp] theorem fixEntriesSet_pending (s : State) : (fixEntriesSet s).pending = s.pending := rfl
@[simp] theorem fixEntriesSet_records_ring (s : State) : (fixEntriesSet s).records.ring = s.records.ring := rfl
@[simp] theorem fixEntriesSet_records_history (s : State) :
    (fixEntriesSet s).records.history = s.records.history := rfl
@[simp] theorem fixEntriesSet_records_limits (s : State) : (fixEntriesSet s).records.limits = s.records.limits := rfl
@[simp] theorem fixEntriesSet_records_waitingLimits (s : State) :
    (fixEntriesSet s).records.waitingLimits = s.records.waitingLimits := rfl
@[simp] theorem fixEntriesSet_records_current_ring (s : State) :
    (fixEntriesSet s).records.current.ring = s.records.current.ring := rfl
@[simp] theorem fixEntriesSet_records_current_cause (s : State) :
    (fixEntriesSet s).records.current.cause = s.records.current.cause := rfl
@[simp] theorem fixEntriesSet_records_current_ownAdvance (s : State) :
    (fixEntriesSet s).records.current.ownAdvance = s.records.current.ownAdvance := rfl
@[simp] theorem fixEntriesSet_records_current_machineAdvance (s : State) :
    (fixEntriesSet s).records.current.machineAdvance = s.records.current.machineAdvance := rfl
@[simp] theorem fixEntriesSet_records_current_advanceSeconds (s : State) :
    (fixEntriesSet s).records.current.advanceSeconds = s.records.current.advanceSeconds := rfl
@[simp] theorem fixEntriesSet_records_current_buildSeconds (s : State) :
    (fixEntriesSet s).records.current.buildSeconds = s.records.current.buildSeconds := rfl
@[simp] theorem fixEntriesSet_records_current_peakForce (s : State) :
    (fixEntriesSet s).records.current.peakForce = s.records.current.peakForce := rfl
@[simp] theorem fixEntriesSet_records_current_advanceAtLimit (s : State) :
    (fixEntriesSet s).records.current.advanceAtLimit = s.records.current.advanceAtLimit := rfl
@[simp] theorem fixEntriesSet_records_current_drive (s : State) :
    (fixEntriesSet s).records.current.drive = s.records.current.drive := rfl
@[simp] theorem fixEntriesSet_records_current_grout (s : State) :
    (fixEntriesSet s).records.current.grout = s.records.current.grout := rfl
@[simp] theorem fixEntriesSet_records_current_spoil (s : State) :
    (fixEntriesSet s).records.current.spoil = s.records.current.spoil := rfl

/-! ### Fields that `storeAndOpen` leaves alone -/

@[simp] theorem storeAndOpen_life (r : Nat) (c : OpeningCause) (s : State) : (storeAndOpen r c s).life = s.life := rfl
@[simp] theorem storeAndOpen_own (r : Nat) (c : OpeningCause) (s : State) : (storeAndOpen r c s).own = s.own := rfl
@[simp] theorem storeAndOpen_cfg (r : Nat) (c : OpeningCause) (s : State) : (storeAndOpen r c s).cfg = s.cfg := rfl
@[simp] theorem storeAndOpen_configClamped (r : Nat) (c : OpeningCause) (s : State) :
    (storeAndOpen r c s).configClamped = s.configClamped := rfl
@[simp] theorem storeAndOpen_listen (r : Nat) (c : OpeningCause) (s : State) :
    (storeAndOpen r c s).listen = s.listen := rfl
@[simp] theorem storeAndOpen_probe (r : Nat) (c : OpeningCause) (s : State) :
    (storeAndOpen r c s).probe = s.probe := rfl
@[simp] theorem storeAndOpen_clock (r : Nat) (c : OpeningCause) (s : State) :
    (storeAndOpen r c s).clock = s.clock := rfl
@[simp] theorem storeAndOpen_inputs (r : Nat) (c : OpeningCause) (s : State) :
    (storeAndOpen r c s).inputs = s.inputs := rfl
@[simp] theorem storeAndOpen_view (r : Nat) (c : OpeningCause) (s : State) : (storeAndOpen r c s).view = s.view := rfl
@[simp] theorem storeAndOpen_thrust (r : Nat) (c : OpeningCause) (s : State) :
    (storeAndOpen r c s).thrust = s.thrust := rfl
@[simp] theorem storeAndOpen_build (r : Nat) (c : OpeningCause) (s : State) :
    (storeAndOpen r c s).build = s.build := rfl
@[simp] theorem storeAndOpen_erector (r : Nat) (c : OpeningCause) (s : State) :
    (storeAndOpen r c s).erector = s.erector := rfl
@[simp] theorem storeAndOpen_drive (r : Nat) (c : OpeningCause) (s : State) :
    (storeAndOpen r c s).drive = s.drive := rfl
@[simp] theorem storeAndOpen_screw (r : Nat) (c : OpeningCause) (s : State) :
    (storeAndOpen r c s).screw = s.screw := rfl
@[simp] theorem storeAndOpen_train (r : Nat) (c : OpeningCause) (s : State) :
    (storeAndOpen r c s).train = s.train := rfl
@[simp] theorem storeAndOpen_grout (r : Nat) (c : OpeningCause) (s : State) :
    (storeAndOpen r c s).grout = s.grout := rfl
@[simp] theorem storeAndOpen_bus (r : Nat) (c : OpeningCause) (s : State) : (storeAndOpen r c s).bus = s.bus := rfl
@[simp] theorem storeAndOpen_out (r : Nat) (c : OpeningCause) (s : State) : (storeAndOpen r c s).out = s.out := rfl
@[simp] theorem storeAndOpen_pending (r : Nat) (c : OpeningCause) (s : State) :
    (storeAndOpen r c s).pending = s.pending := rfl

/-! ### Fields that `openUnits` leaves alone -/

@[simp] theorem openUnits_life (s : State) : (openUnits s).life = s.life := rfl
@[simp] theorem openUnits_own (s : State) : (openUnits s).own = s.own := rfl
@[simp] theorem openUnits_cfg (s : State) : (openUnits s).cfg = s.cfg := rfl
@[simp] theorem openUnits_configClamped (s : State) : (openUnits s).configClamped = s.configClamped := rfl
@[simp] theorem openUnits_listen (s : State) : (openUnits s).listen = s.listen := rfl
@[simp] theorem openUnits_probe (s : State) : (openUnits s).probe = s.probe := rfl
@[simp] theorem openUnits_clock (s : State) : (openUnits s).clock = s.clock := rfl
@[simp] theorem openUnits_inputs (s : State) : (openUnits s).inputs = s.inputs := rfl
@[simp] theorem openUnits_train (s : State) : (openUnits s).train = s.train := rfl
@[simp] theorem openUnits_records (s : State) : (openUnits s).records = s.records := rfl
@[simp] theorem openUnits_bus (s : State) : (openUnits s).bus = s.bus := rfl
@[simp] theorem openUnits_out (s : State) : (openUnits s).out = s.out := rfl
@[simp] theorem openUnits_pending (s : State) : (openUnits s).pending = s.pending := rfl
@[simp] theorem openUnits_view_peers (s : State) : (openUnits s).view.peers = s.view.peers := rfl
@[simp] theorem openUnits_view_trips (s : State) : (openUnits s).view.trips = s.view.trips := rfl
@[simp] theorem openUnits_view_blind (s : State) : (openUnits s).view.blind = s.view.blind := rfl
@[simp] theorem openUnits_view_heard (s : State) : (openUnits s).view.heard = s.view.heard := rfl
@[simp] theorem openUnits_view_completion (s : State) : (openUnits s).view.completion = s.view.completion := rfl
@[simp] theorem openUnits_view_silence (s : State) : (openUnits s).view.silence = s.view.silence := rfl
@[simp] theorem openUnits_view_screwConflict (s : State) :
    (openUnits s).view.screwConflict = s.view.screwConflict := rfl
@[simp] theorem openUnits_view_erectorConflict (s : State) :
    (openUnits s).view.erectorConflict = s.view.erectorConflict := rfl
@[simp] theorem openUnits_thrust_mode (s : State) : (openUnits s).thrust.mode = s.thrust.mode := rfl
@[simp] theorem openUnits_thrust_mark (s : State) : (openUnits s).thrust.mark = s.thrust.mark := rfl
@[simp] theorem openUnits_thrust_holds (s : State) : (openUnits s).thrust.holds = s.thrust.holds := rfl
@[simp] theorem openUnits_thrust_vlim (s : State) : (openUnits s).thrust.vlim = s.thrust.vlim := rfl
@[simp] theorem openUnits_thrust_vmax (s : State) : (openUnits s).thrust.vmax = s.thrust.vmax := rfl
@[simp] theorem openUnits_thrust_pmax (s : State) : (openUnits s).thrust.pmax = s.thrust.pmax := rfl
@[simp] theorem openUnits_build_margin (s : State) : (openUnits s).build.margin = s.build.margin := rfl
@[simp] theorem openUnits_erector_queue (s : State) : (openUnits s).erector.queue = s.erector.queue := rfl
@[simp] theorem openUnits_erector_arrival (s : State) : (openUnits s).erector.arrival = s.erector.arrival := rfl
@[simp] theorem openUnits_erector_seq (s : State) : (openUnits s).erector.seq = s.erector.seq := rfl
@[simp] theorem openUnits_erector_working (s : State) : (openUnits s).erector.working = s.erector.working := rfl
@[simp] theorem openUnits_erector_feederEmpty (s : State) :
    (openUnits s).erector.feederEmpty = s.erector.feederEmpty := rfl
@[simp] theorem openUnits_erector_feederOverfull (s : State) :
    (openUnits s).erector.feederOverfull = s.erector.feederOverfull := rfl
@[simp] theorem openUnits_drive_state (s : State) : (openUnits s).drive.state = s.drive.state := rfl
@[simp] theorem openUnits_drive_target (s : State) : (openUnits s).drive.target = s.drive.target := rfl
@[simp] theorem openUnits_drive_direction (s : State) : (openUnits s).drive.direction = s.drive.direction := rfl
@[simp] theorem openUnits_drive_command (s : State) : (openUnits s).drive.command = s.drive.command := rfl
@[simp] theorem openUnits_drive_trim (s : State) : (openUnits s).drive.trim = s.drive.trim := rfl
@[simp] theorem openUnits_drive_ramp (s : State) : (openUnits s).drive.ramp = s.drive.ramp := rfl
@[simp] theorem openUnits_drive_stallLevel (s : State) : (openUnits s).drive.stallLevel = s.drive.stallLevel := rfl
@[simp] theorem openUnits_drive_stallTime (s : State) : (openUnits s).drive.stallTime = s.drive.stallTime := rfl
@[simp] theorem openUnits_drive_stallStart (s : State) : (openUnits s).drive.stallStart = s.drive.stallStart := rfl
@[simp] theorem openUnits_screw_state (s : State) : (openUnits s).screw.state = s.screw.state := rfl
@[simp] theorem openUnits_screw_command (s : State) : (openUnits s).screw.command = s.screw.command := rfl
@[simp] theorem openUnits_screw_support (s : State) : (openUnits s).screw.support = s.screw.support := rfl
@[simp] theorem openUnits_screw_target (s : State) : (openUnits s).screw.target = s.screw.target := rfl
@[simp] theorem openUnits_screw_band (s : State) : (openUnits s).screw.band = s.screw.band := rfl
@[simp] theorem openUnits_screw_gain (s : State) : (openUnits s).screw.gain = s.screw.gain := rfl
@[simp] theorem openUnits_screw_beltStart (s : State) : (openUnits s).screw.beltStart = s.screw.beltStart := rfl
@[simp] theorem openUnits_screw_beltTime (s : State) : (openUnits s).screw.beltTime = s.screw.beltTime := rfl
@[simp] theorem openUnits_screw_pressureBand (s : State) :
    (openUnits s).screw.pressureBand = s.screw.pressureBand := rfl
@[simp] theorem openUnits_grout_line (s : State) : (openUnits s).grout.line = s.grout.line := rfl
@[simp] theorem openUnits_grout_active (s : State) : (openUnits s).grout.active = s.grout.active := rfl
@[simp] theorem openUnits_grout_waiting (s : State) : (openUnits s).grout.waiting = s.grout.waiting := rfl
@[simp] theorem openUnits_grout_tail (s : State) : (openUnits s).grout.tail = s.grout.tail := rfl
@[simp] theorem openUnits_grout_used (s : State) : (openUnits s).grout.used = s.grout.used := rfl
@[simp] theorem openUnits_grout_rate (s : State) : (openUnits s).grout.rate = s.grout.rate := rfl
@[simp] theorem openUnits_grout_potStart (s : State) : (openUnits s).grout.potStart = s.grout.potStart := rfl
@[simp] theorem openUnits_grout_flushStart (s : State) : (openUnits s).grout.flushStart = s.grout.flushStart := rfl
@[simp] theorem openUnits_grout_potLife (s : State) : (openUnits s).grout.potLife = s.grout.potLife := rfl
@[simp] theorem openUnits_grout_flushTime (s : State) : (openUnits s).grout.flushTime = s.grout.flushTime := rfl
@[simp] theorem openUnits_grout_saturated (s : State) : (openUnits s).grout.saturated = s.grout.saturated := rfl
@[simp] theorem openUnits_grout_setting (s : State) : (openUnits s).grout.setting = s.grout.setting := rfl
@[simp] theorem openUnits_grout_gmin (s : State) : (openUnits s).grout.gmin = s.grout.gmin := rfl

/-! ### Fields that `groutSettingsAtClose` leaves alone -/

@[simp] theorem groutSettingsAtClose_life (s : State) : (groutSettingsAtClose s).life = s.life := rfl
@[simp] theorem groutSettingsAtClose_own (s : State) : (groutSettingsAtClose s).own = s.own := rfl
@[simp] theorem groutSettingsAtClose_cfg (s : State) : (groutSettingsAtClose s).cfg = s.cfg := rfl
@[simp] theorem groutSettingsAtClose_configClamped (s : State) :
    (groutSettingsAtClose s).configClamped = s.configClamped := rfl
@[simp] theorem groutSettingsAtClose_listen (s : State) : (groutSettingsAtClose s).listen = s.listen := rfl
@[simp] theorem groutSettingsAtClose_probe (s : State) : (groutSettingsAtClose s).probe = s.probe := rfl
@[simp] theorem groutSettingsAtClose_clock (s : State) : (groutSettingsAtClose s).clock = s.clock := rfl
@[simp] theorem groutSettingsAtClose_inputs (s : State) : (groutSettingsAtClose s).inputs = s.inputs := rfl
@[simp] theorem groutSettingsAtClose_view (s : State) : (groutSettingsAtClose s).view = s.view := rfl
@[simp] theorem groutSettingsAtClose_thrust (s : State) : (groutSettingsAtClose s).thrust = s.thrust := rfl
@[simp] theorem groutSettingsAtClose_build (s : State) : (groutSettingsAtClose s).build = s.build := rfl
@[simp] theorem groutSettingsAtClose_erector (s : State) : (groutSettingsAtClose s).erector = s.erector := rfl
@[simp] theorem groutSettingsAtClose_drive (s : State) : (groutSettingsAtClose s).drive = s.drive := rfl
@[simp] theorem groutSettingsAtClose_screw (s : State) : (groutSettingsAtClose s).screw = s.screw := rfl
@[simp] theorem groutSettingsAtClose_train (s : State) : (groutSettingsAtClose s).train = s.train := rfl
@[simp] theorem groutSettingsAtClose_records (s : State) : (groutSettingsAtClose s).records = s.records := rfl
@[simp] theorem groutSettingsAtClose_bus (s : State) : (groutSettingsAtClose s).bus = s.bus := rfl
@[simp] theorem groutSettingsAtClose_out (s : State) : (groutSettingsAtClose s).out = s.out := rfl
@[simp] theorem groutSettingsAtClose_pending (s : State) : (groutSettingsAtClose s).pending = s.pending := rfl
@[simp] theorem groutSettingsAtClose_grout_line (s : State) :
    (groutSettingsAtClose s).grout.line = s.grout.line := rfl
@[simp] theorem groutSettingsAtClose_grout_used (s : State) :
    (groutSettingsAtClose s).grout.used = s.grout.used := rfl
@[simp] theorem groutSettingsAtClose_grout_rate (s : State) :
    (groutSettingsAtClose s).grout.rate = s.grout.rate := rfl
@[simp] theorem groutSettingsAtClose_grout_sample (s : State) :
    (groutSettingsAtClose s).grout.sample = s.grout.sample := rfl
@[simp] theorem groutSettingsAtClose_grout_strokes (s : State) :
    (groutSettingsAtClose s).grout.strokes = s.grout.strokes := rfl
@[simp] theorem groutSettingsAtClose_grout_volume (s : State) :
    (groutSettingsAtClose s).grout.volume = s.grout.volume := rfl
@[simp] theorem groutSettingsAtClose_grout_potStart (s : State) :
    (groutSettingsAtClose s).grout.potStart = s.grout.potStart := rfl
@[simp] theorem groutSettingsAtClose_grout_flushStart (s : State) :
    (groutSettingsAtClose s).grout.flushStart = s.grout.flushStart := rfl
@[simp] theorem groutSettingsAtClose_grout_potLife (s : State) :
    (groutSettingsAtClose s).grout.potLife = s.grout.potLife := rfl
@[simp] theorem groutSettingsAtClose_grout_flushTime (s : State) :
    (groutSettingsAtClose s).grout.flushTime = s.grout.flushTime := rfl
@[simp] theorem groutSettingsAtClose_grout_saturated (s : State) :
    (groutSettingsAtClose s).grout.saturated = s.grout.saturated := rfl
@[simp] theorem groutSettingsAtClose_grout_setting (s : State) :
    (groutSettingsAtClose s).grout.setting = s.grout.setting := rfl
@[simp] theorem groutSettingsAtClose_grout_gmin (s : State) :
    (groutSettingsAtClose s).grout.gmin = s.grout.gmin := rfl

/-! ### Fields that `openRing` leaves alone -/

@[simp] theorem openRing_life (r : Nat) (c : OpeningCause) (s : State) : (openRing r c s).life = s.life := rfl
@[simp] theorem openRing_own (r : Nat) (c : OpeningCause) (s : State) : (openRing r c s).own = s.own := rfl
@[simp] theorem openRing_cfg (r : Nat) (c : OpeningCause) (s : State) : (openRing r c s).cfg = s.cfg := rfl
@[simp] theorem openRing_configClamped (r : Nat) (c : OpeningCause) (s : State) :
    (openRing r c s).configClamped = s.configClamped := rfl
@[simp] theorem openRing_listen (r : Nat) (c : OpeningCause) (s : State) : (openRing r c s).listen = s.listen := rfl
@[simp] theorem openRing_probe (r : Nat) (c : OpeningCause) (s : State) : (openRing r c s).probe = s.probe := rfl
@[simp] theorem openRing_clock (r : Nat) (c : OpeningCause) (s : State) : (openRing r c s).clock = s.clock := rfl
@[simp] theorem openRing_inputs (r : Nat) (c : OpeningCause) (s : State) : (openRing r c s).inputs = s.inputs := rfl
@[simp] theorem openRing_train (r : Nat) (c : OpeningCause) (s : State) : (openRing r c s).train = s.train := rfl
@[simp] theorem openRing_bus (r : Nat) (c : OpeningCause) (s : State) : (openRing r c s).bus = s.bus := rfl
@[simp] theorem openRing_out (r : Nat) (c : OpeningCause) (s : State) : (openRing r c s).out = s.out := rfl
@[simp] theorem openRing_pending (r : Nat) (c : OpeningCause) (s : State) :
    (openRing r c s).pending = s.pending := rfl
@[simp] theorem openRing_view_peers (r : Nat) (c : OpeningCause) (s : State) :
    (openRing r c s).view.peers = s.view.peers := rfl
@[simp] theorem openRing_view_trips (r : Nat) (c : OpeningCause) (s : State) :
    (openRing r c s).view.trips = s.view.trips := rfl
@[simp] theorem openRing_view_blind (r : Nat) (c : OpeningCause) (s : State) :
    (openRing r c s).view.blind = s.view.blind := rfl
@[simp] theorem openRing_view_heard (r : Nat) (c : OpeningCause) (s : State) :
    (openRing r c s).view.heard = s.view.heard := rfl
@[simp] theorem openRing_view_completion (r : Nat) (c : OpeningCause) (s : State) :
    (openRing r c s).view.completion = s.view.completion := rfl
@[simp] theorem openRing_view_silence (r : Nat) (c : OpeningCause) (s : State) :
    (openRing r c s).view.silence = s.view.silence := rfl
@[simp] theorem openRing_view_screwConflict (r : Nat) (c : OpeningCause) (s : State) :
    (openRing r c s).view.screwConflict = s.view.screwConflict := rfl
@[simp] theorem openRing_view_erectorConflict (r : Nat) (c : OpeningCause) (s : State) :
    (openRing r c s).view.erectorConflict = s.view.erectorConflict := rfl
@[simp] theorem openRing_thrust_mode (r : Nat) (c : OpeningCause) (s : State) :
    (openRing r c s).thrust.mode = s.thrust.mode := rfl
@[simp] theorem openRing_thrust_mark (r : Nat) (c : OpeningCause) (s : State) :
    (openRing r c s).thrust.mark = s.thrust.mark := rfl
@[simp] theorem openRing_thrust_holds (r : Nat) (c : OpeningCause) (s : State) :
    (openRing r c s).thrust.holds = s.thrust.holds := rfl
@[simp] theorem openRing_thrust_vlim (r : Nat) (c : OpeningCause) (s : State) :
    (openRing r c s).thrust.vlim = s.thrust.vlim := rfl
@[simp] theorem openRing_thrust_vmax (r : Nat) (c : OpeningCause) (s : State) :
    (openRing r c s).thrust.vmax = s.thrust.vmax := rfl
@[simp] theorem openRing_thrust_pmax (r : Nat) (c : OpeningCause) (s : State) :
    (openRing r c s).thrust.pmax = s.thrust.pmax := rfl
@[simp] theorem openRing_build_margin (r : Nat) (c : OpeningCause) (s : State) :
    (openRing r c s).build.margin = s.build.margin := rfl
@[simp] theorem openRing_erector_queue (r : Nat) (c : OpeningCause) (s : State) :
    (openRing r c s).erector.queue = s.erector.queue := rfl
@[simp] theorem openRing_erector_arrival (r : Nat) (c : OpeningCause) (s : State) :
    (openRing r c s).erector.arrival = s.erector.arrival := rfl
@[simp] theorem openRing_erector_seq (r : Nat) (c : OpeningCause) (s : State) :
    (openRing r c s).erector.seq = s.erector.seq := rfl
@[simp] theorem openRing_erector_working (r : Nat) (c : OpeningCause) (s : State) :
    (openRing r c s).erector.working = s.erector.working := rfl
@[simp] theorem openRing_erector_feederEmpty (r : Nat) (c : OpeningCause) (s : State) :
    (openRing r c s).erector.feederEmpty = s.erector.feederEmpty := rfl
@[simp] theorem openRing_erector_feederOverfull (r : Nat) (c : OpeningCause) (s : State) :
    (openRing r c s).erector.feederOverfull = s.erector.feederOverfull := rfl
@[simp] theorem openRing_drive_state (r : Nat) (c : OpeningCause) (s : State) :
    (openRing r c s).drive.state = s.drive.state := rfl
@[simp] theorem openRing_drive_target (r : Nat) (c : OpeningCause) (s : State) :
    (openRing r c s).drive.target = s.drive.target := rfl
@[simp] theorem openRing_drive_direction (r : Nat) (c : OpeningCause) (s : State) :
    (openRing r c s).drive.direction = s.drive.direction := rfl
@[simp] theorem openRing_drive_command (r : Nat) (c : OpeningCause) (s : State) :
    (openRing r c s).drive.command = s.drive.command := rfl
@[simp] theorem openRing_drive_trim (r : Nat) (c : OpeningCause) (s : State) :
    (openRing r c s).drive.trim = s.drive.trim := rfl
@[simp] theorem openRing_drive_ramp (r : Nat) (c : OpeningCause) (s : State) :
    (openRing r c s).drive.ramp = s.drive.ramp := rfl
@[simp] theorem openRing_drive_stallLevel (r : Nat) (c : OpeningCause) (s : State) :
    (openRing r c s).drive.stallLevel = s.drive.stallLevel := rfl
@[simp] theorem openRing_drive_stallTime (r : Nat) (c : OpeningCause) (s : State) :
    (openRing r c s).drive.stallTime = s.drive.stallTime := rfl
@[simp] theorem openRing_drive_stallStart (r : Nat) (c : OpeningCause) (s : State) :
    (openRing r c s).drive.stallStart = s.drive.stallStart := rfl
@[simp] theorem openRing_screw_state (r : Nat) (c : OpeningCause) (s : State) :
    (openRing r c s).screw.state = s.screw.state := rfl
@[simp] theorem openRing_screw_command (r : Nat) (c : OpeningCause) (s : State) :
    (openRing r c s).screw.command = s.screw.command := rfl
@[simp] theorem openRing_screw_support (r : Nat) (c : OpeningCause) (s : State) :
    (openRing r c s).screw.support = s.screw.support := rfl
@[simp] theorem openRing_screw_target (r : Nat) (c : OpeningCause) (s : State) :
    (openRing r c s).screw.target = s.screw.target := rfl
@[simp] theorem openRing_screw_band (r : Nat) (c : OpeningCause) (s : State) :
    (openRing r c s).screw.band = s.screw.band := rfl
@[simp] theorem openRing_screw_gain (r : Nat) (c : OpeningCause) (s : State) :
    (openRing r c s).screw.gain = s.screw.gain := rfl
@[simp] theorem openRing_screw_beltStart (r : Nat) (c : OpeningCause) (s : State) :
    (openRing r c s).screw.beltStart = s.screw.beltStart := rfl
@[simp] theorem openRing_screw_beltTime (r : Nat) (c : OpeningCause) (s : State) :
    (openRing r c s).screw.beltTime = s.screw.beltTime := rfl
@[simp] theorem openRing_screw_pressureBand (r : Nat) (c : OpeningCause) (s : State) :
    (openRing r c s).screw.pressureBand = s.screw.pressureBand := rfl
@[simp] theorem openRing_grout_line (r : Nat) (c : OpeningCause) (s : State) :
    (openRing r c s).grout.line = s.grout.line := rfl
@[simp] theorem openRing_grout_active (r : Nat) (c : OpeningCause) (s : State) :
    (openRing r c s).grout.active = s.grout.active := rfl
@[simp] theorem openRing_grout_waiting (r : Nat) (c : OpeningCause) (s : State) :
    (openRing r c s).grout.waiting = s.grout.waiting := rfl
@[simp] theorem openRing_grout_used (r : Nat) (c : OpeningCause) (s : State) :
    (openRing r c s).grout.used = s.grout.used := rfl
@[simp] theorem openRing_grout_rate (r : Nat) (c : OpeningCause) (s : State) :
    (openRing r c s).grout.rate = s.grout.rate := rfl
@[simp] theorem openRing_grout_potStart (r : Nat) (c : OpeningCause) (s : State) :
    (openRing r c s).grout.potStart = s.grout.potStart := rfl
@[simp] theorem openRing_grout_flushStart (r : Nat) (c : OpeningCause) (s : State) :
    (openRing r c s).grout.flushStart = s.grout.flushStart := rfl
@[simp] theorem openRing_grout_potLife (r : Nat) (c : OpeningCause) (s : State) :
    (openRing r c s).grout.potLife = s.grout.potLife := rfl
@[simp] theorem openRing_grout_flushTime (r : Nat) (c : OpeningCause) (s : State) :
    (openRing r c s).grout.flushTime = s.grout.flushTime := rfl
@[simp] theorem openRing_grout_saturated (r : Nat) (c : OpeningCause) (s : State) :
    (openRing r c s).grout.saturated = s.grout.saturated := rfl
@[simp] theorem openRing_grout_setting (r : Nat) (c : OpeningCause) (s : State) :
    (openRing r c s).grout.setting = s.grout.setting := rfl
@[simp] theorem openRing_grout_gmin (r : Nat) (c : OpeningCause) (s : State) :
    (openRing r c s).grout.gmin = s.grout.gmin := rfl
@[simp] theorem openRing_records_history (r : Nat) (c : OpeningCause) (s : State) :
    (openRing r c s).records.history = s.records.history := rfl
@[simp] theorem openRing_records_limits (r : Nat) (c : OpeningCause) (s : State) :
    (openRing r c s).records.limits = s.records.limits := rfl
@[simp] theorem openRing_records_waitingLimits (r : Nat) (c : OpeningCause) (s : State) :
    (openRing r c s).records.waitingLimits = s.records.waitingLimits := rfl

/-! ### Fields that `setEntryState` leaves alone -/

@[simp] theorem setEntryState_life (x : EntryState) (s : State) : (setEntryState x s).life = s.life := rfl
@[simp] theorem setEntryState_own (x : EntryState) (s : State) : (setEntryState x s).own = s.own := rfl
@[simp] theorem setEntryState_cfg (x : EntryState) (s : State) : (setEntryState x s).cfg = s.cfg := rfl
@[simp] theorem setEntryState_configClamped (x : EntryState) (s : State) :
    (setEntryState x s).configClamped = s.configClamped := rfl
@[simp] theorem setEntryState_listen (x : EntryState) (s : State) : (setEntryState x s).listen = s.listen := rfl
@[simp] theorem setEntryState_probe (x : EntryState) (s : State) : (setEntryState x s).probe = s.probe := rfl
@[simp] theorem setEntryState_clock (x : EntryState) (s : State) : (setEntryState x s).clock = s.clock := rfl
@[simp] theorem setEntryState_inputs (x : EntryState) (s : State) : (setEntryState x s).inputs = s.inputs := rfl
@[simp] theorem setEntryState_view (x : EntryState) (s : State) : (setEntryState x s).view = s.view := rfl
@[simp] theorem setEntryState_thrust (x : EntryState) (s : State) : (setEntryState x s).thrust = s.thrust := rfl
@[simp] theorem setEntryState_erector (x : EntryState) (s : State) : (setEntryState x s).erector = s.erector := rfl
@[simp] theorem setEntryState_drive (x : EntryState) (s : State) : (setEntryState x s).drive = s.drive := rfl
@[simp] theorem setEntryState_screw (x : EntryState) (s : State) : (setEntryState x s).screw = s.screw := rfl
@[simp] theorem setEntryState_train (x : EntryState) (s : State) : (setEntryState x s).train = s.train := rfl
@[simp] theorem setEntryState_grout (x : EntryState) (s : State) : (setEntryState x s).grout = s.grout := rfl
@[simp] theorem setEntryState_records (x : EntryState) (s : State) : (setEntryState x s).records = s.records := rfl
@[simp] theorem setEntryState_bus (x : EntryState) (s : State) : (setEntryState x s).bus = s.bus := rfl
@[simp] theorem setEntryState_out (x : EntryState) (s : State) : (setEntryState x s).out = s.out := rfl
@[simp] theorem setEntryState_pending (x : EntryState) (s : State) : (setEntryState x s).pending = s.pending := rfl
@[simp] theorem setEntryState_build_state (x : EntryState) (s : State) :
    (setEntryState x s).build.state = s.build.state := rfl
@[simp] theorem setEntryState_build_planRing (x : EntryState) (s : State) :
    (setEntryState x s).build.planRing = s.build.planRing := rfl
@[simp] theorem setEntryState_build_index (x : EntryState) (s : State) :
    (setEntryState x s).build.index = s.build.index := rfl
@[simp] theorem setEntryState_build_margin (x : EntryState) (s : State) :
    (setEntryState x s).build.margin = s.build.margin := rfl
@[simp] theorem setEntryState_build_retry (x : EntryState) (s : State) :
    (setEntryState x s).build.retry = s.build.retry := rfl
@[simp] theorem setEntryState_build_planMismatch (x : EntryState) (s : State) :
    (setEntryState x s).build.planMismatch = s.build.planMismatch := rfl
@[simp] theorem setEntryState_build_marginLow (x : EntryState) (s : State) :
    (setEntryState x s).build.marginLow = s.build.marginLow := rfl

/-! ### Fields that `moveIndex` leaves alone -/

@[simp] theorem moveIndex_life (i : Nat) (s : State) : (moveIndex i s).life = s.life := rfl
@[simp] theorem moveIndex_own (i : Nat) (s : State) : (moveIndex i s).own = s.own := rfl
@[simp] theorem moveIndex_cfg (i : Nat) (s : State) : (moveIndex i s).cfg = s.cfg := rfl
@[simp] theorem moveIndex_configClamped (i : Nat) (s : State) : (moveIndex i s).configClamped = s.configClamped := rfl
@[simp] theorem moveIndex_listen (i : Nat) (s : State) : (moveIndex i s).listen = s.listen := rfl
@[simp] theorem moveIndex_probe (i : Nat) (s : State) : (moveIndex i s).probe = s.probe := rfl
@[simp] theorem moveIndex_clock (i : Nat) (s : State) : (moveIndex i s).clock = s.clock := rfl
@[simp] theorem moveIndex_inputs (i : Nat) (s : State) : (moveIndex i s).inputs = s.inputs := rfl
@[simp] theorem moveIndex_view (i : Nat) (s : State) : (moveIndex i s).view = s.view := rfl
@[simp] theorem moveIndex_thrust (i : Nat) (s : State) : (moveIndex i s).thrust = s.thrust := rfl
@[simp] theorem moveIndex_erector (i : Nat) (s : State) : (moveIndex i s).erector = s.erector := rfl
@[simp] theorem moveIndex_drive (i : Nat) (s : State) : (moveIndex i s).drive = s.drive := rfl
@[simp] theorem moveIndex_screw (i : Nat) (s : State) : (moveIndex i s).screw = s.screw := rfl
@[simp] theorem moveIndex_train (i : Nat) (s : State) : (moveIndex i s).train = s.train := rfl
@[simp] theorem moveIndex_grout (i : Nat) (s : State) : (moveIndex i s).grout = s.grout := rfl
@[simp] theorem moveIndex_records (i : Nat) (s : State) : (moveIndex i s).records = s.records := rfl
@[simp] theorem moveIndex_bus (i : Nat) (s : State) : (moveIndex i s).bus = s.bus := rfl
@[simp] theorem moveIndex_out (i : Nat) (s : State) : (moveIndex i s).out = s.out := rfl
@[simp] theorem moveIndex_pending (i : Nat) (s : State) : (moveIndex i s).pending = s.pending := rfl
@[simp] theorem moveIndex_build_state (i : Nat) (s : State) : (moveIndex i s).build.state = s.build.state := rfl
@[simp] theorem moveIndex_build_planRing (i : Nat) (s : State) :
    (moveIndex i s).build.planRing = s.build.planRing := rfl
@[simp] theorem moveIndex_build_margin (i : Nat) (s : State) : (moveIndex i s).build.margin = s.build.margin := rfl
@[simp] theorem moveIndex_build_planMismatch (i : Nat) (s : State) :
    (moveIndex i s).build.planMismatch = s.build.planMismatch := rfl
@[simp] theorem moveIndex_build_marginLow (i : Nat) (s : State) :
    (moveIndex i s).build.marginLow = s.build.marginLow := rfl

/-! ### Fields that `supportEval` leaves alone -/

@[simp] theorem supportEval_life (s : State) : (supportEval s).life = s.life := rfl
@[simp] theorem supportEval_own (s : State) : (supportEval s).own = s.own := rfl
@[simp] theorem supportEval_cfg (s : State) : (supportEval s).cfg = s.cfg := rfl
@[simp] theorem supportEval_configClamped (s : State) : (supportEval s).configClamped = s.configClamped := rfl
@[simp] theorem supportEval_listen (s : State) : (supportEval s).listen = s.listen := rfl
@[simp] theorem supportEval_probe (s : State) : (supportEval s).probe = s.probe := rfl
@[simp] theorem supportEval_clock (s : State) : (supportEval s).clock = s.clock := rfl
@[simp] theorem supportEval_inputs (s : State) : (supportEval s).inputs = s.inputs := rfl
@[simp] theorem supportEval_view (s : State) : (supportEval s).view = s.view := rfl
@[simp] theorem supportEval_thrust (s : State) : (supportEval s).thrust = s.thrust := rfl
@[simp] theorem supportEval_build (s : State) : (supportEval s).build = s.build := rfl
@[simp] theorem supportEval_erector (s : State) : (supportEval s).erector = s.erector := rfl
@[simp] theorem supportEval_drive (s : State) : (supportEval s).drive = s.drive := rfl
@[simp] theorem supportEval_train (s : State) : (supportEval s).train = s.train := rfl
@[simp] theorem supportEval_grout (s : State) : (supportEval s).grout = s.grout := rfl
@[simp] theorem supportEval_records (s : State) : (supportEval s).records = s.records := rfl
@[simp] theorem supportEval_bus (s : State) : (supportEval s).bus = s.bus := rfl
@[simp] theorem supportEval_out (s : State) : (supportEval s).out = s.out := rfl
@[simp] theorem supportEval_pending (s : State) : (supportEval s).pending = s.pending := rfl
@[simp] theorem supportEval_screw_state (s : State) : (supportEval s).screw.state = s.screw.state := rfl
@[simp] theorem supportEval_screw_command (s : State) : (supportEval s).screw.command = s.screw.command := rfl
@[simp] theorem supportEval_screw_target (s : State) : (supportEval s).screw.target = s.screw.target := rfl
@[simp] theorem supportEval_screw_band (s : State) : (supportEval s).screw.band = s.screw.band := rfl
@[simp] theorem supportEval_screw_gain (s : State) : (supportEval s).screw.gain = s.screw.gain := rfl
@[simp] theorem supportEval_screw_sample (s : State) : (supportEval s).screw.sample = s.screw.sample := rfl
@[simp] theorem supportEval_screw_beltStart (s : State) : (supportEval s).screw.beltStart = s.screw.beltStart := rfl
@[simp] theorem supportEval_screw_beltTime (s : State) : (supportEval s).screw.beltTime = s.screw.beltTime := rfl
@[simp] theorem supportEval_screw_pressureBand (s : State) :
    (supportEval s).screw.pressureBand = s.screw.pressureBand := rfl

/-! ### Fields that `limitEval` leaves alone -/

@[simp] theorem limitEval_life (s : State) : (limitEval s).life = s.life := rfl
@[simp] theorem limitEval_own (s : State) : (limitEval s).own = s.own := rfl
@[simp] theorem limitEval_cfg (s : State) : (limitEval s).cfg = s.cfg := rfl
@[simp] theorem limitEval_configClamped (s : State) : (limitEval s).configClamped = s.configClamped := rfl
@[simp] theorem limitEval_listen (s : State) : (limitEval s).listen = s.listen := rfl
@[simp] theorem limitEval_probe (s : State) : (limitEval s).probe = s.probe := rfl
@[simp] theorem limitEval_clock (s : State) : (limitEval s).clock = s.clock := rfl
@[simp] theorem limitEval_inputs (s : State) : (limitEval s).inputs = s.inputs := rfl
@[simp] theorem limitEval_view (s : State) : (limitEval s).view = s.view := rfl
@[simp] theorem limitEval_build (s : State) : (limitEval s).build = s.build := rfl
@[simp] theorem limitEval_erector (s : State) : (limitEval s).erector = s.erector := rfl
@[simp] theorem limitEval_drive (s : State) : (limitEval s).drive = s.drive := rfl
@[simp] theorem limitEval_screw (s : State) : (limitEval s).screw = s.screw := rfl
@[simp] theorem limitEval_train (s : State) : (limitEval s).train = s.train := rfl
@[simp] theorem limitEval_grout (s : State) : (limitEval s).grout = s.grout := rfl
@[simp] theorem limitEval_records (s : State) : (limitEval s).records = s.records := rfl
@[simp] theorem limitEval_bus (s : State) : (limitEval s).bus = s.bus := rfl
@[simp] theorem limitEval_out (s : State) : (limitEval s).out = s.out := rfl
@[simp] theorem limitEval_pending (s : State) : (limitEval s).pending = s.pending := rfl
@[simp] theorem limitEval_thrust_mode (s : State) : (limitEval s).thrust.mode = s.thrust.mode := rfl
@[simp] theorem limitEval_thrust_advance (s : State) : (limitEval s).thrust.advance = s.thrust.advance := rfl
@[simp] theorem limitEval_thrust_mark (s : State) : (limitEval s).thrust.mark = s.thrust.mark := rfl
@[simp] theorem limitEval_thrust_holds (s : State) : (limitEval s).thrust.holds = s.thrust.holds := rfl
@[simp] theorem limitEval_thrust_vmax (s : State) : (limitEval s).thrust.vmax = s.thrust.vmax := rfl
@[simp] theorem limitEval_thrust_pmax (s : State) : (limitEval s).thrust.pmax = s.thrust.pmax := rfl

/-! ### Fields that `holdsEval` leaves alone -/

@[simp] theorem holdsEval_life (s : State) : (holdsEval s).life = s.life := rfl
@[simp] theorem holdsEval_own (s : State) : (holdsEval s).own = s.own := rfl
@[simp] theorem holdsEval_cfg (s : State) : (holdsEval s).cfg = s.cfg := rfl
@[simp] theorem holdsEval_configClamped (s : State) : (holdsEval s).configClamped = s.configClamped := rfl
@[simp] theorem holdsEval_listen (s : State) : (holdsEval s).listen = s.listen := rfl
@[simp] theorem holdsEval_probe (s : State) : (holdsEval s).probe = s.probe := rfl
@[simp] theorem holdsEval_clock (s : State) : (holdsEval s).clock = s.clock := rfl
@[simp] theorem holdsEval_inputs (s : State) : (holdsEval s).inputs = s.inputs := rfl
@[simp] theorem holdsEval_view (s : State) : (holdsEval s).view = s.view := rfl
@[simp] theorem holdsEval_build (s : State) : (holdsEval s).build = s.build := rfl
@[simp] theorem holdsEval_erector (s : State) : (holdsEval s).erector = s.erector := rfl
@[simp] theorem holdsEval_drive (s : State) : (holdsEval s).drive = s.drive := rfl
@[simp] theorem holdsEval_screw (s : State) : (holdsEval s).screw = s.screw := rfl
@[simp] theorem holdsEval_train (s : State) : (holdsEval s).train = s.train := rfl
@[simp] theorem holdsEval_grout (s : State) : (holdsEval s).grout = s.grout := rfl
@[simp] theorem holdsEval_records (s : State) : (holdsEval s).records = s.records := rfl
@[simp] theorem holdsEval_bus (s : State) : (holdsEval s).bus = s.bus := rfl
@[simp] theorem holdsEval_out (s : State) : (holdsEval s).out = s.out := rfl
@[simp] theorem holdsEval_pending (s : State) : (holdsEval s).pending = s.pending := rfl
@[simp] theorem holdsEval_thrust_mode (s : State) : (holdsEval s).thrust.mode = s.thrust.mode := rfl
@[simp] theorem holdsEval_thrust_advance (s : State) : (holdsEval s).thrust.advance = s.thrust.advance := rfl
@[simp] theorem holdsEval_thrust_mark (s : State) : (holdsEval s).thrust.mark = s.thrust.mark := rfl
@[simp] theorem holdsEval_thrust_vlim (s : State) : (holdsEval s).thrust.vlim = s.thrust.vlim := rfl
@[simp] theorem holdsEval_thrust_vmax (s : State) : (holdsEval s).thrust.vmax = s.thrust.vmax := rfl
@[simp] theorem holdsEval_thrust_pmax (s : State) : (holdsEval s).thrust.pmax = s.thrust.pmax := rfl
@[simp] theorem holdsEval_thrust_holds_stopped (s : State) :
    (holdsEval s).thrust.holds.stopped = s.thrust.holds.stopped := rfl

/-! ### Fields that `setSeq` leaves alone -/

@[simp] theorem setSeq_life (q : SeqState) (s : State) : (setSeq q s).life = s.life := rfl
@[simp] theorem setSeq_own (q : SeqState) (s : State) : (setSeq q s).own = s.own := rfl
@[simp] theorem setSeq_cfg (q : SeqState) (s : State) : (setSeq q s).cfg = s.cfg := rfl
@[simp] theorem setSeq_configClamped (q : SeqState) (s : State) : (setSeq q s).configClamped = s.configClamped := rfl
@[simp] theorem setSeq_listen (q : SeqState) (s : State) : (setSeq q s).listen = s.listen := rfl
@[simp] theorem setSeq_probe (q : SeqState) (s : State) : (setSeq q s).probe = s.probe := rfl
@[simp] theorem setSeq_clock (q : SeqState) (s : State) : (setSeq q s).clock = s.clock := rfl
@[simp] theorem setSeq_inputs (q : SeqState) (s : State) : (setSeq q s).inputs = s.inputs := rfl
@[simp] theorem setSeq_view (q : SeqState) (s : State) : (setSeq q s).view = s.view := rfl
@[simp] theorem setSeq_thrust (q : SeqState) (s : State) : (setSeq q s).thrust = s.thrust := rfl
@[simp] theorem setSeq_build (q : SeqState) (s : State) : (setSeq q s).build = s.build := rfl
@[simp] theorem setSeq_drive (q : SeqState) (s : State) : (setSeq q s).drive = s.drive := rfl
@[simp] theorem setSeq_screw (q : SeqState) (s : State) : (setSeq q s).screw = s.screw := rfl
@[simp] theorem setSeq_train (q : SeqState) (s : State) : (setSeq q s).train = s.train := rfl
@[simp] theorem setSeq_grout (q : SeqState) (s : State) : (setSeq q s).grout = s.grout := rfl
@[simp] theorem setSeq_records (q : SeqState) (s : State) : (setSeq q s).records = s.records := rfl
@[simp] theorem setSeq_bus (q : SeqState) (s : State) : (setSeq q s).bus = s.bus := rfl
@[simp] theorem setSeq_out (q : SeqState) (s : State) : (setSeq q s).out = s.out := rfl
@[simp] theorem setSeq_pending (q : SeqState) (s : State) : (setSeq q s).pending = s.pending := rfl
@[simp] theorem setSeq_erector_queue (q : SeqState) (s : State) : (setSeq q s).erector.queue = s.erector.queue := rfl
@[simp] theorem setSeq_erector_arrival (q : SeqState) (s : State) :
    (setSeq q s).erector.arrival = s.erector.arrival := rfl
@[simp] theorem setSeq_erector_working (q : SeqState) (s : State) :
    (setSeq q s).erector.working = s.erector.working := rfl
@[simp] theorem setSeq_erector_feederMismatch (q : SeqState) (s : State) :
    (setSeq q s).erector.feederMismatch = s.erector.feederMismatch := rfl
@[simp] theorem setSeq_erector_feederOverfull (q : SeqState) (s : State) :
    (setSeq q s).erector.feederOverfull = s.erector.feederOverfull := rfl

/-! ### Fields that `standDown` leaves alone -/

@[simp] theorem standDown_life (s : State) : (standDown s).life = s.life := rfl
@[simp] theorem standDown_own (s : State) : (standDown s).own = s.own := rfl
@[simp] theorem standDown_cfg (s : State) : (standDown s).cfg = s.cfg := rfl
@[simp] theorem standDown_configClamped (s : State) : (standDown s).configClamped = s.configClamped := rfl
@[simp] theorem standDown_listen (s : State) : (standDown s).listen = s.listen := rfl
@[simp] theorem standDown_probe (s : State) : (standDown s).probe = s.probe := rfl
@[simp] theorem standDown_clock (s : State) : (standDown s).clock = s.clock := rfl
@[simp] theorem standDown_inputs (s : State) : (standDown s).inputs = s.inputs := rfl
@[simp] theorem standDown_view (s : State) : (standDown s).view = s.view := rfl
@[simp] theorem standDown_thrust (s : State) : (standDown s).thrust = s.thrust := rfl
@[simp] theorem standDown_build (s : State) : (standDown s).build = s.build := rfl
@[simp] theorem standDown_drive (s : State) : (standDown s).drive = s.drive := rfl
@[simp] theorem standDown_screw (s : State) : (standDown s).screw = s.screw := rfl
@[simp] theorem standDown_train (s : State) : (standDown s).train = s.train := rfl
@[simp] theorem standDown_grout (s : State) : (standDown s).grout = s.grout := rfl
@[simp] theorem standDown_records (s : State) : (standDown s).records = s.records := rfl
@[simp] theorem standDown_bus (s : State) : (standDown s).bus = s.bus := rfl
@[simp] theorem standDown_out (s : State) : (standDown s).out = s.out := rfl
@[simp] theorem standDown_pending (s : State) : (standDown s).pending = s.pending := rfl
@[simp] theorem standDown_erector_queue (s : State) : (standDown s).erector.queue = s.erector.queue := rfl
@[simp] theorem standDown_erector_arrival (s : State) :
    (standDown s).erector.arrival = s.erector.arrival := rfl
@[simp] theorem standDown_erector_working (s : State) :
    (standDown s).erector.working = s.erector.working := rfl
@[simp] theorem standDown_erector_feederMismatch (s : State) :
    (standDown s).erector.feederMismatch = s.erector.feederMismatch := rfl
@[simp] theorem standDown_erector_feederOverfull (s : State) :
    (standDown s).erector.feederOverfull = s.erector.feederOverfull := rfl

/-! ### Fields that `setOutputs` leaves alone -/

@[simp] theorem setOutputs_life (s : State) : (setOutputs s).life = s.life := rfl
@[simp] theorem setOutputs_own (s : State) : (setOutputs s).own = s.own := rfl
@[simp] theorem setOutputs_cfg (s : State) : (setOutputs s).cfg = s.cfg := rfl
@[simp] theorem setOutputs_configClamped (s : State) : (setOutputs s).configClamped = s.configClamped := rfl
@[simp] theorem setOutputs_listen (s : State) : (setOutputs s).listen = s.listen := rfl
@[simp] theorem setOutputs_probe (s : State) : (setOutputs s).probe = s.probe := rfl
@[simp] theorem setOutputs_clock (s : State) : (setOutputs s).clock = s.clock := rfl
@[simp] theorem setOutputs_inputs (s : State) : (setOutputs s).inputs = s.inputs := rfl
@[simp] theorem setOutputs_view (s : State) : (setOutputs s).view = s.view := rfl
@[simp] theorem setOutputs_thrust (s : State) : (setOutputs s).thrust = s.thrust := rfl
@[simp] theorem setOutputs_build (s : State) : (setOutputs s).build = s.build := rfl
@[simp] theorem setOutputs_erector (s : State) : (setOutputs s).erector = s.erector := rfl
@[simp] theorem setOutputs_drive (s : State) : (setOutputs s).drive = s.drive := rfl
@[simp] theorem setOutputs_screw (s : State) : (setOutputs s).screw = s.screw := rfl
@[simp] theorem setOutputs_train (s : State) : (setOutputs s).train = s.train := rfl
@[simp] theorem setOutputs_grout (s : State) : (setOutputs s).grout = s.grout := rfl
@[simp] theorem setOutputs_records (s : State) : (setOutputs s).records = s.records := rfl
@[simp] theorem setOutputs_bus (s : State) : (setOutputs s).bus = s.bus := rfl
@[simp] theorem setOutputs_pending (s : State) : (setOutputs s).pending = s.pending := rfl

/-! ### Fields that `setStopped` leaves alone -/

@[simp] theorem setStopped_life (b : Bool) (s : State) : (setStopped b s).life = s.life := rfl
@[simp] theorem setStopped_own (b : Bool) (s : State) : (setStopped b s).own = s.own := rfl
@[simp] theorem setStopped_cfg (b : Bool) (s : State) : (setStopped b s).cfg = s.cfg := rfl
@[simp] theorem setStopped_configClamped (b : Bool) (s : State) :
    (setStopped b s).configClamped = s.configClamped := rfl
@[simp] theorem setStopped_listen (b : Bool) (s : State) : (setStopped b s).listen = s.listen := rfl
@[simp] theorem setStopped_probe (b : Bool) (s : State) : (setStopped b s).probe = s.probe := rfl
@[simp] theorem setStopped_clock (b : Bool) (s : State) : (setStopped b s).clock = s.clock := rfl
@[simp] theorem setStopped_inputs (b : Bool) (s : State) : (setStopped b s).inputs = s.inputs := rfl
@[simp] theorem setStopped_view (b : Bool) (s : State) : (setStopped b s).view = s.view := rfl
@[simp] theorem setStopped_build (b : Bool) (s : State) : (setStopped b s).build = s.build := rfl
@[simp] theorem setStopped_erector (b : Bool) (s : State) : (setStopped b s).erector = s.erector := rfl
@[simp] theorem setStopped_drive (b : Bool) (s : State) : (setStopped b s).drive = s.drive := rfl
@[simp] theorem setStopped_screw (b : Bool) (s : State) : (setStopped b s).screw = s.screw := rfl
@[simp] theorem setStopped_train (b : Bool) (s : State) : (setStopped b s).train = s.train := rfl
@[simp] theorem setStopped_grout (b : Bool) (s : State) : (setStopped b s).grout = s.grout := rfl
@[simp] theorem setStopped_records (b : Bool) (s : State) : (setStopped b s).records = s.records := rfl
@[simp] theorem setStopped_bus (b : Bool) (s : State) : (setStopped b s).bus = s.bus := rfl
@[simp] theorem setStopped_out (b : Bool) (s : State) : (setStopped b s).out = s.out := rfl
@[simp] theorem setStopped_pending (b : Bool) (s : State) : (setStopped b s).pending = s.pending := rfl
@[simp] theorem setStopped_thrust_mode (b : Bool) (s : State) : (setStopped b s).thrust.mode = s.thrust.mode := rfl
@[simp] theorem setStopped_thrust_advance (b : Bool) (s : State) :
    (setStopped b s).thrust.advance = s.thrust.advance := rfl
@[simp] theorem setStopped_thrust_mark (b : Bool) (s : State) : (setStopped b s).thrust.mark = s.thrust.mark := rfl
@[simp] theorem setStopped_thrust_vlim (b : Bool) (s : State) : (setStopped b s).thrust.vlim = s.thrust.vlim := rfl
@[simp] theorem setStopped_thrust_vmax (b : Bool) (s : State) : (setStopped b s).thrust.vmax = s.thrust.vmax := rfl
@[simp] theorem setStopped_thrust_pmax (b : Bool) (s : State) : (setStopped b s).thrust.pmax = s.thrust.pmax := rfl
@[simp] theorem setStopped_thrust_holds_build (b : Bool) (s : State) :
    (setStopped b s).thrust.holds.build = s.thrust.holds.build := rfl
@[simp] theorem setStopped_thrust_holds_peerBuild (b : Bool) (s : State) :
    (setStopped b s).thrust.holds.peerBuild = s.thrust.holds.peerBuild := rfl
@[simp] theorem setStopped_thrust_holds_pace (b : Bool) (s : State) :
    (setStopped b s).thrust.holds.pace = s.thrust.holds.pace := rfl
@[simp] theorem setStopped_thrust_holds_grout (b : Bool) (s : State) :
    (setStopped b s).thrust.holds.grout = s.thrust.holds.grout := rfl
@[simp] theorem setStopped_thrust_holds_cutterhead (b : Bool) (s : State) :
    (setStopped b s).thrust.holds.cutterhead = s.thrust.holds.cutterhead := rfl
@[simp] theorem setStopped_thrust_holds_trip (b : Bool) (s : State) :
    (setStopped b s).thrust.holds.trip = s.thrust.holds.trip := rfl
@[simp] theorem setStopped_thrust_holds_blind (b : Bool) (s : State) :
    (setStopped b s).thrust.holds.blind = s.thrust.holds.blind := rfl
@[simp] theorem setStopped_thrust_holds_spoilStale (b : Bool) (s : State) :
    (setStopped b s).thrust.holds.spoilStale = s.thrust.holds.spoilStale := rfl
@[simp] theorem setStopped_thrust_holds_strokeEnd (b : Bool) (s : State) :
    (setStopped b s).thrust.holds.strokeEnd = s.thrust.holds.strokeEnd := rfl

/-! ### Fields that `recordForce` leaves alone -/

@[simp] theorem recordForce_life (v : Nat) (s : State) : (recordForce v s).life = s.life := rfl
@[simp] theorem recordForce_own (v : Nat) (s : State) : (recordForce v s).own = s.own := rfl
@[simp] theorem recordForce_cfg (v : Nat) (s : State) : (recordForce v s).cfg = s.cfg := rfl
@[simp] theorem recordForce_configClamped (v : Nat) (s : State) :
    (recordForce v s).configClamped = s.configClamped := rfl
@[simp] theorem recordForce_listen (v : Nat) (s : State) : (recordForce v s).listen = s.listen := rfl
@[simp] theorem recordForce_probe (v : Nat) (s : State) : (recordForce v s).probe = s.probe := rfl
@[simp] theorem recordForce_clock (v : Nat) (s : State) : (recordForce v s).clock = s.clock := rfl
@[simp] theorem recordForce_inputs (v : Nat) (s : State) : (recordForce v s).inputs = s.inputs := rfl
@[simp] theorem recordForce_view (v : Nat) (s : State) : (recordForce v s).view = s.view := rfl
@[simp] theorem recordForce_thrust (v : Nat) (s : State) : (recordForce v s).thrust = s.thrust := rfl
@[simp] theorem recordForce_build (v : Nat) (s : State) : (recordForce v s).build = s.build := rfl
@[simp] theorem recordForce_erector (v : Nat) (s : State) : (recordForce v s).erector = s.erector := rfl
@[simp] theorem recordForce_drive (v : Nat) (s : State) : (recordForce v s).drive = s.drive := rfl
@[simp] theorem recordForce_screw (v : Nat) (s : State) : (recordForce v s).screw = s.screw := rfl
@[simp] theorem recordForce_train (v : Nat) (s : State) : (recordForce v s).train = s.train := rfl
@[simp] theorem recordForce_grout (v : Nat) (s : State) : (recordForce v s).grout = s.grout := rfl
@[simp] theorem recordForce_bus (v : Nat) (s : State) : (recordForce v s).bus = s.bus := rfl
@[simp] theorem recordForce_out (v : Nat) (s : State) : (recordForce v s).out = s.out := rfl
@[simp] theorem recordForce_pending (v : Nat) (s : State) : (recordForce v s).pending = s.pending := rfl
@[simp] theorem recordForce_records_ring (v : Nat) (s : State) :
    (recordForce v s).records.ring = s.records.ring := rfl
@[simp] theorem recordForce_records_history (v : Nat) (s : State) :
    (recordForce v s).records.history = s.records.history := rfl
@[simp] theorem recordForce_records_limits (v : Nat) (s : State) :
    (recordForce v s).records.limits = s.records.limits := rfl
@[simp] theorem recordForce_records_waitingLimits (v : Nat) (s : State) :
    (recordForce v s).records.waitingLimits = s.records.waitingLimits := rfl
@[simp] theorem recordForce_records_current_ring (v : Nat) (s : State) :
    (recordForce v s).records.current.ring = s.records.current.ring := rfl
@[simp] theorem recordForce_records_current_cause (v : Nat) (s : State) :
    (recordForce v s).records.current.cause = s.records.current.cause := rfl
@[simp] theorem recordForce_records_current_ownAdvance (v : Nat) (s : State) :
    (recordForce v s).records.current.ownAdvance = s.records.current.ownAdvance := rfl
@[simp] theorem recordForce_records_current_machineAdvance (v : Nat) (s : State) :
    (recordForce v s).records.current.machineAdvance = s.records.current.machineAdvance := rfl
@[simp] theorem recordForce_records_current_advanceSeconds (v : Nat) (s : State) :
    (recordForce v s).records.current.advanceSeconds = s.records.current.advanceSeconds := rfl
@[simp] theorem recordForce_records_current_buildSeconds (v : Nat) (s : State) :
    (recordForce v s).records.current.buildSeconds = s.records.current.buildSeconds := rfl
@[simp] theorem recordForce_records_current_advanceAtLimit (v : Nat) (s : State) :
    (recordForce v s).records.current.advanceAtLimit = s.records.current.advanceAtLimit := rfl
@[simp] theorem recordForce_records_current_drive (v : Nat) (s : State) :
    (recordForce v s).records.current.drive = s.records.current.drive := rfl
@[simp] theorem recordForce_records_current_grout (v : Nat) (s : State) :
    (recordForce v s).records.current.grout = s.records.current.grout := rfl
@[simp] theorem recordForce_records_current_spoil (v : Nat) (s : State) :
    (recordForce v s).records.current.spoil = s.records.current.spoil := rfl
@[simp] theorem recordForce_records_current_build (v : Nat) (s : State) :
    (recordForce v s).records.current.build = s.records.current.build := rfl

/-! ### Fields that `removeHead` leaves alone -/

@[simp] theorem removeHead_life (s : State) : (removeHead s).life = s.life := rfl
@[simp] theorem removeHead_own (s : State) : (removeHead s).own = s.own := rfl
@[simp] theorem removeHead_cfg (s : State) : (removeHead s).cfg = s.cfg := rfl
@[simp] theorem removeHead_configClamped (s : State) : (removeHead s).configClamped = s.configClamped := rfl
@[simp] theorem removeHead_listen (s : State) : (removeHead s).listen = s.listen := rfl
@[simp] theorem removeHead_probe (s : State) : (removeHead s).probe = s.probe := rfl
@[simp] theorem removeHead_clock (s : State) : (removeHead s).clock = s.clock := rfl
@[simp] theorem removeHead_inputs (s : State) : (removeHead s).inputs = s.inputs := rfl
@[simp] theorem removeHead_view (s : State) : (removeHead s).view = s.view := rfl
@[simp] theorem removeHead_thrust (s : State) : (removeHead s).thrust = s.thrust := rfl
@[simp] theorem removeHead_build (s : State) : (removeHead s).build = s.build := rfl
@[simp] theorem removeHead_drive (s : State) : (removeHead s).drive = s.drive := rfl
@[simp] theorem removeHead_screw (s : State) : (removeHead s).screw = s.screw := rfl
@[simp] theorem removeHead_train (s : State) : (removeHead s).train = s.train := rfl
@[simp] theorem removeHead_grout (s : State) : (removeHead s).grout = s.grout := rfl
@[simp] theorem removeHead_records (s : State) : (removeHead s).records = s.records := rfl
@[simp] theorem removeHead_bus (s : State) : (removeHead s).bus = s.bus := rfl
@[simp] theorem removeHead_out (s : State) : (removeHead s).out = s.out := rfl
@[simp] theorem removeHead_pending (s : State) : (removeHead s).pending = s.pending := rfl
@[simp] theorem removeHead_erector_arrival (s : State) : (removeHead s).erector.arrival = s.erector.arrival := rfl
@[simp] theorem removeHead_erector_seq (s : State) : (removeHead s).erector.seq = s.erector.seq := rfl
@[simp] theorem removeHead_erector_working (s : State) : (removeHead s).erector.working = s.erector.working := rfl
@[simp] theorem removeHead_erector_feederEmpty (s : State) :
    (removeHead s).erector.feederEmpty = s.erector.feederEmpty := rfl
@[simp] theorem removeHead_erector_feederMismatch (s : State) :
    (removeHead s).erector.feederMismatch = s.erector.feederMismatch := rfl

/-! ### Fields that `beltSilent` leaves alone -/

@[simp] theorem beltSilent_life (s : State) : (beltSilent s).life = s.life := rfl
@[simp] theorem beltSilent_own (s : State) : (beltSilent s).own = s.own := rfl
@[simp] theorem beltSilent_cfg (s : State) : (beltSilent s).cfg = s.cfg := rfl
@[simp] theorem beltSilent_configClamped (s : State) : (beltSilent s).configClamped = s.configClamped := rfl
@[simp] theorem beltSilent_listen (s : State) : (beltSilent s).listen = s.listen := rfl
@[simp] theorem beltSilent_probe (s : State) : (beltSilent s).probe = s.probe := rfl
@[simp] theorem beltSilent_clock (s : State) : (beltSilent s).clock = s.clock := rfl
@[simp] theorem beltSilent_inputs (s : State) : (beltSilent s).inputs = s.inputs := rfl
@[simp] theorem beltSilent_view (s : State) : (beltSilent s).view = s.view := rfl
@[simp] theorem beltSilent_thrust (s : State) : (beltSilent s).thrust = s.thrust := rfl
@[simp] theorem beltSilent_build (s : State) : (beltSilent s).build = s.build := rfl
@[simp] theorem beltSilent_erector (s : State) : (beltSilent s).erector = s.erector := rfl
@[simp] theorem beltSilent_drive (s : State) : (beltSilent s).drive = s.drive := rfl
@[simp] theorem beltSilent_grout (s : State) : (beltSilent s).grout = s.grout := rfl
@[simp] theorem beltSilent_records (s : State) : (beltSilent s).records = s.records := rfl
@[simp] theorem beltSilent_bus (s : State) : (beltSilent s).bus = s.bus := rfl
@[simp] theorem beltSilent_out (s : State) : (beltSilent s).out = s.out := rfl
@[simp] theorem beltSilent_pending (s : State) : (beltSilent s).pending = s.pending := rfl
@[simp] theorem beltSilent_screw_state (s : State) : (beltSilent s).screw.state = s.screw.state := rfl
@[simp] theorem beltSilent_screw_command (s : State) : (beltSilent s).screw.command = s.screw.command := rfl
@[simp] theorem beltSilent_screw_support (s : State) : (beltSilent s).screw.support = s.screw.support := rfl
@[simp] theorem beltSilent_screw_target (s : State) : (beltSilent s).screw.target = s.screw.target := rfl
@[simp] theorem beltSilent_screw_band (s : State) : (beltSilent s).screw.band = s.screw.band := rfl
@[simp] theorem beltSilent_screw_gain (s : State) : (beltSilent s).screw.gain = s.screw.gain := rfl
@[simp] theorem beltSilent_screw_sample (s : State) : (beltSilent s).screw.sample = s.screw.sample := rfl
@[simp] theorem beltSilent_screw_beltTime (s : State) : (beltSilent s).screw.beltTime = s.screw.beltTime := rfl
@[simp] theorem beltSilent_screw_pressureBand (s : State) :
    (beltSilent s).screw.pressureBand = s.screw.pressureBand := rfl
@[simp] theorem beltSilent_train_cars (s : State) : (beltSilent s).train.cars = s.train.cars := rfl
@[simp] theorem beltSilent_train_mass (s : State) : (beltSilent s).train.mass = s.train.mass := rfl
@[simp] theorem beltSilent_train_overflow (s : State) : (beltSilent s).train.overflow = s.train.overflow := rfl
@[simp] theorem beltSilent_train_holdLevel (s : State) : (beltSilent s).train.holdLevel = s.train.holdLevel := rfl
@[simp] theorem beltSilent_train_slowLevel (s : State) : (beltSilent s).train.slowLevel = s.train.slowLevel := rfl
@[simp] theorem beltSilent_train_pace (s : State) : (beltSilent s).train.pace = s.train.pace := rfl
@[simp] theorem beltSilent_train_reasons_train (s : State) :
    (beltSilent s).train.reasons.train = s.train.reasons.train := rfl
@[simp] theorem beltSilent_train_reasons_isOver (s : State) :
    (beltSilent s).train.reasons.isOver = s.train.reasons.isOver := rfl
@[simp] theorem beltSilent_train_reasons_pressureBlind (s : State) :
    (beltSilent s).train.reasons.pressureBlind = s.train.reasons.pressureBlind := rfl
@[simp] theorem beltSilent_train_reasons_noTarget (s : State) :
    (beltSilent s).train.reasons.noTarget = s.train.reasons.noTarget := rfl

/-! ### Fields that `beltHeard` leaves alone -/

@[simp] theorem beltHeard_life (s : State) : (beltHeard s).life = s.life := rfl
@[simp] theorem beltHeard_own (s : State) : (beltHeard s).own = s.own := rfl
@[simp] theorem beltHeard_cfg (s : State) : (beltHeard s).cfg = s.cfg := rfl
@[simp] theorem beltHeard_configClamped (s : State) : (beltHeard s).configClamped = s.configClamped := rfl
@[simp] theorem beltHeard_listen (s : State) : (beltHeard s).listen = s.listen := rfl
@[simp] theorem beltHeard_probe (s : State) : (beltHeard s).probe = s.probe := rfl
@[simp] theorem beltHeard_clock (s : State) : (beltHeard s).clock = s.clock := rfl
@[simp] theorem beltHeard_inputs (s : State) : (beltHeard s).inputs = s.inputs := rfl
@[simp] theorem beltHeard_view (s : State) : (beltHeard s).view = s.view := rfl
@[simp] theorem beltHeard_thrust (s : State) : (beltHeard s).thrust = s.thrust := rfl
@[simp] theorem beltHeard_build (s : State) : (beltHeard s).build = s.build := rfl
@[simp] theorem beltHeard_erector (s : State) : (beltHeard s).erector = s.erector := rfl
@[simp] theorem beltHeard_drive (s : State) : (beltHeard s).drive = s.drive := rfl
@[simp] theorem beltHeard_grout (s : State) : (beltHeard s).grout = s.grout := rfl
@[simp] theorem beltHeard_records (s : State) : (beltHeard s).records = s.records := rfl
@[simp] theorem beltHeard_bus (s : State) : (beltHeard s).bus = s.bus := rfl
@[simp] theorem beltHeard_out (s : State) : (beltHeard s).out = s.out := rfl
@[simp] theorem beltHeard_pending (s : State) : (beltHeard s).pending = s.pending := rfl
@[simp] theorem beltHeard_screw_state (s : State) : (beltHeard s).screw.state = s.screw.state := rfl
@[simp] theorem beltHeard_screw_command (s : State) : (beltHeard s).screw.command = s.screw.command := rfl
@[simp] theorem beltHeard_screw_support (s : State) : (beltHeard s).screw.support = s.screw.support := rfl
@[simp] theorem beltHeard_screw_target (s : State) : (beltHeard s).screw.target = s.screw.target := rfl
@[simp] theorem beltHeard_screw_band (s : State) : (beltHeard s).screw.band = s.screw.band := rfl
@[simp] theorem beltHeard_screw_gain (s : State) : (beltHeard s).screw.gain = s.screw.gain := rfl
@[simp] theorem beltHeard_screw_sample (s : State) : (beltHeard s).screw.sample = s.screw.sample := rfl
@[simp] theorem beltHeard_screw_beltTime (s : State) : (beltHeard s).screw.beltTime = s.screw.beltTime := rfl
@[simp] theorem beltHeard_screw_pressureBand (s : State) :
    (beltHeard s).screw.pressureBand = s.screw.pressureBand := rfl
@[simp] theorem beltHeard_train_cars (s : State) : (beltHeard s).train.cars = s.train.cars := rfl
@[simp] theorem beltHeard_train_mass (s : State) : (beltHeard s).train.mass = s.train.mass := rfl
@[simp] theorem beltHeard_train_overflow (s : State) : (beltHeard s).train.overflow = s.train.overflow := rfl
@[simp] theorem beltHeard_train_holdLevel (s : State) : (beltHeard s).train.holdLevel = s.train.holdLevel := rfl
@[simp] theorem beltHeard_train_slowLevel (s : State) : (beltHeard s).train.slowLevel = s.train.slowLevel := rfl
@[simp] theorem beltHeard_train_pace (s : State) : (beltHeard s).train.pace = s.train.pace := rfl
@[simp] theorem beltHeard_train_reasons_train (s : State) :
    (beltHeard s).train.reasons.train = s.train.reasons.train := rfl
@[simp] theorem beltHeard_train_reasons_isOver (s : State) :
    (beltHeard s).train.reasons.isOver = s.train.reasons.isOver := rfl
@[simp] theorem beltHeard_train_reasons_pressureBlind (s : State) :
    (beltHeard s).train.reasons.pressureBlind = s.train.reasons.pressureBlind := rfl
@[simp] theorem beltHeard_train_reasons_noTarget (s : State) :
    (beltHeard s).train.reasons.noTarget = s.train.reasons.noTarget := rfl

/-! ### Fields that `storeBody` leaves alone -/

@[simp] theorem storeBody_life (a : Nat) (b : StateBody) (s : State) : (storeBody a b s).life = s.life := rfl
@[simp] theorem storeBody_own (a : Nat) (b : StateBody) (s : State) : (storeBody a b s).own = s.own := rfl
@[simp] theorem storeBody_cfg (a : Nat) (b : StateBody) (s : State) : (storeBody a b s).cfg = s.cfg := rfl
@[simp] theorem storeBody_configClamped (a : Nat) (b : StateBody) (s : State) :
    (storeBody a b s).configClamped = s.configClamped := rfl
@[simp] theorem storeBody_listen (a : Nat) (b : StateBody) (s : State) : (storeBody a b s).listen = s.listen := rfl
@[simp] theorem storeBody_probe (a : Nat) (b : StateBody) (s : State) : (storeBody a b s).probe = s.probe := rfl
@[simp] theorem storeBody_clock (a : Nat) (b : StateBody) (s : State) : (storeBody a b s).clock = s.clock := rfl
@[simp] theorem storeBody_inputs (a : Nat) (b : StateBody) (s : State) : (storeBody a b s).inputs = s.inputs := rfl
@[simp] theorem storeBody_thrust (a : Nat) (b : StateBody) (s : State) : (storeBody a b s).thrust = s.thrust := rfl
@[simp] theorem storeBody_build (a : Nat) (b : StateBody) (s : State) : (storeBody a b s).build = s.build := rfl
@[simp] theorem storeBody_erector (a : Nat) (b : StateBody) (s : State) : (storeBody a b s).erector = s.erector := rfl
@[simp] theorem storeBody_drive (a : Nat) (b : StateBody) (s : State) : (storeBody a b s).drive = s.drive := rfl
@[simp] theorem storeBody_screw (a : Nat) (b : StateBody) (s : State) : (storeBody a b s).screw = s.screw := rfl
@[simp] theorem storeBody_train (a : Nat) (b : StateBody) (s : State) : (storeBody a b s).train = s.train := rfl
@[simp] theorem storeBody_grout (a : Nat) (b : StateBody) (s : State) : (storeBody a b s).grout = s.grout := rfl
@[simp] theorem storeBody_records (a : Nat) (b : StateBody) (s : State) : (storeBody a b s).records = s.records := rfl
@[simp] theorem storeBody_out (a : Nat) (b : StateBody) (s : State) : (storeBody a b s).out = s.out := rfl
@[simp] theorem storeBody_pending (a : Nat) (b : StateBody) (s : State) : (storeBody a b s).pending = s.pending := rfl
@[simp] theorem storeBody_view_trips (a : Nat) (b : StateBody) (s : State) :
    (storeBody a b s).view.trips = s.view.trips := rfl
@[simp] theorem storeBody_view_blind (a : Nat) (b : StateBody) (s : State) :
    (storeBody a b s).view.blind = s.view.blind := rfl
@[simp] theorem storeBody_view_completion (a : Nat) (b : StateBody) (s : State) :
    (storeBody a b s).view.completion = s.view.completion := rfl
@[simp] theorem storeBody_view_silence (a : Nat) (b : StateBody) (s : State) :
    (storeBody a b s).view.silence = s.view.silence := rfl
@[simp] theorem storeBody_view_screwConflict (a : Nat) (b : StateBody) (s : State) :
    (storeBody a b s).view.screwConflict = s.view.screwConflict := rfl
@[simp] theorem storeBody_view_erectorConflict (a : Nat) (b : StateBody) (s : State) :
    (storeBody a b s).view.erectorConflict = s.view.erectorConflict := rfl
@[simp] theorem storeBody_view_lring (a : Nat) (b : StateBody) (s : State) :
    (storeBody a b s).view.lring = s.view.lring := rfl
@[simp] theorem storeBody_bus_queue (a : Nat) (b : StateBody) (s : State) :
    (storeBody a b s).bus.queue = s.bus.queue := rfl
@[simp] theorem storeBody_bus_offer (a : Nat) (b : StateBody) (s : State) :
    (storeBody a b s).bus.offer = s.bus.offer := rfl
@[simp] theorem storeBody_bus_faults (a : Nat) (b : StateBody) (s : State) :
    (storeBody a b s).bus.faults = s.bus.faults := rfl
@[simp] theorem storeBody_bus_lineFault (a : Nat) (b : StateBody) (s : State) :
    (storeBody a b s).bus.lineFault = s.bus.lineFault := rfl
@[simp] theorem storeBody_bus_renewal (a : Nat) (b : StateBody) (s : State) :
    (storeBody a b s).bus.renewal = s.bus.renewal := rfl
@[simp] theorem storeBody_bus_page (a : Nat) (b : StateBody) (s : State) :
    (storeBody a b s).bus.page = s.bus.page := rfl

/-! ### Fields that `storePace` leaves alone -/

@[simp] theorem storePace_life (a : Nat) (p : Pace) (s : State) : (storePace a p s).life = s.life := rfl
@[simp] theorem storePace_own (a : Nat) (p : Pace) (s : State) : (storePace a p s).own = s.own := rfl
@[simp] theorem storePace_cfg (a : Nat) (p : Pace) (s : State) : (storePace a p s).cfg = s.cfg := rfl
@[simp] theorem storePace_configClamped (a : Nat) (p : Pace) (s : State) :
    (storePace a p s).configClamped = s.configClamped := rfl
@[simp] theorem storePace_listen (a : Nat) (p : Pace) (s : State) : (storePace a p s).listen = s.listen := rfl
@[simp] theorem storePace_probe (a : Nat) (p : Pace) (s : State) : (storePace a p s).probe = s.probe := rfl
@[simp] theorem storePace_clock (a : Nat) (p : Pace) (s : State) : (storePace a p s).clock = s.clock := rfl
@[simp] theorem storePace_inputs (a : Nat) (p : Pace) (s : State) : (storePace a p s).inputs = s.inputs := rfl
@[simp] theorem storePace_thrust (a : Nat) (p : Pace) (s : State) : (storePace a p s).thrust = s.thrust := rfl
@[simp] theorem storePace_build (a : Nat) (p : Pace) (s : State) : (storePace a p s).build = s.build := rfl
@[simp] theorem storePace_erector (a : Nat) (p : Pace) (s : State) : (storePace a p s).erector = s.erector := rfl
@[simp] theorem storePace_drive (a : Nat) (p : Pace) (s : State) : (storePace a p s).drive = s.drive := rfl
@[simp] theorem storePace_screw (a : Nat) (p : Pace) (s : State) : (storePace a p s).screw = s.screw := rfl
@[simp] theorem storePace_train (a : Nat) (p : Pace) (s : State) : (storePace a p s).train = s.train := rfl
@[simp] theorem storePace_grout (a : Nat) (p : Pace) (s : State) : (storePace a p s).grout = s.grout := rfl
@[simp] theorem storePace_records (a : Nat) (p : Pace) (s : State) : (storePace a p s).records = s.records := rfl
@[simp] theorem storePace_bus (a : Nat) (p : Pace) (s : State) : (storePace a p s).bus = s.bus := rfl
@[simp] theorem storePace_out (a : Nat) (p : Pace) (s : State) : (storePace a p s).out = s.out := rfl
@[simp] theorem storePace_pending (a : Nat) (p : Pace) (s : State) : (storePace a p s).pending = s.pending := rfl
@[simp] theorem storePace_view_trips (a : Nat) (p : Pace) (s : State) :
    (storePace a p s).view.trips = s.view.trips := rfl
@[simp] theorem storePace_view_blind (a : Nat) (p : Pace) (s : State) :
    (storePace a p s).view.blind = s.view.blind := rfl
@[simp] theorem storePace_view_heard (a : Nat) (p : Pace) (s : State) :
    (storePace a p s).view.heard = s.view.heard := rfl
@[simp] theorem storePace_view_completion (a : Nat) (p : Pace) (s : State) :
    (storePace a p s).view.completion = s.view.completion := rfl
@[simp] theorem storePace_view_silence (a : Nat) (p : Pace) (s : State) :
    (storePace a p s).view.silence = s.view.silence := rfl
@[simp] theorem storePace_view_screwConflict (a : Nat) (p : Pace) (s : State) :
    (storePace a p s).view.screwConflict = s.view.screwConflict := rfl
@[simp] theorem storePace_view_erectorConflict (a : Nat) (p : Pace) (s : State) :
    (storePace a p s).view.erectorConflict = s.view.erectorConflict := rfl
@[simp] theorem storePace_view_lring (a : Nat) (p : Pace) (s : State) :
    (storePace a p s).view.lring = s.view.lring := rfl

/-! ### Fields that `conflictEval` leaves alone -/

@[simp] theorem conflictEval_life (s : State) : (conflictEval s).life = s.life := rfl
@[simp] theorem conflictEval_own (s : State) : (conflictEval s).own = s.own := rfl
@[simp] theorem conflictEval_cfg (s : State) : (conflictEval s).cfg = s.cfg := rfl
@[simp] theorem conflictEval_configClamped (s : State) : (conflictEval s).configClamped = s.configClamped := rfl
@[simp] theorem conflictEval_listen (s : State) : (conflictEval s).listen = s.listen := rfl
@[simp] theorem conflictEval_probe (s : State) : (conflictEval s).probe = s.probe := rfl
@[simp] theorem conflictEval_clock (s : State) : (conflictEval s).clock = s.clock := rfl
@[simp] theorem conflictEval_inputs (s : State) : (conflictEval s).inputs = s.inputs := rfl
@[simp] theorem conflictEval_thrust (s : State) : (conflictEval s).thrust = s.thrust := rfl
@[simp] theorem conflictEval_build (s : State) : (conflictEval s).build = s.build := rfl
@[simp] theorem conflictEval_erector (s : State) : (conflictEval s).erector = s.erector := rfl
@[simp] theorem conflictEval_drive (s : State) : (conflictEval s).drive = s.drive := rfl
@[simp] theorem conflictEval_screw (s : State) : (conflictEval s).screw = s.screw := rfl
@[simp] theorem conflictEval_train (s : State) : (conflictEval s).train = s.train := rfl
@[simp] theorem conflictEval_grout (s : State) : (conflictEval s).grout = s.grout := rfl
@[simp] theorem conflictEval_records (s : State) : (conflictEval s).records = s.records := rfl
@[simp] theorem conflictEval_bus (s : State) : (conflictEval s).bus = s.bus := rfl
@[simp] theorem conflictEval_out (s : State) : (conflictEval s).out = s.out := rfl
@[simp] theorem conflictEval_pending (s : State) : (conflictEval s).pending = s.pending := rfl
@[simp] theorem conflictEval_view_peers (s : State) : (conflictEval s).view.peers = s.view.peers := rfl
@[simp] theorem conflictEval_view_trips (s : State) : (conflictEval s).view.trips = s.view.trips := rfl
@[simp] theorem conflictEval_view_blind (s : State) : (conflictEval s).view.blind = s.view.blind := rfl
@[simp] theorem conflictEval_view_heard (s : State) : (conflictEval s).view.heard = s.view.heard := rfl
@[simp] theorem conflictEval_view_completion (s : State) : (conflictEval s).view.completion = s.view.completion := rfl
@[simp] theorem conflictEval_view_silence (s : State) : (conflictEval s).view.silence = s.view.silence := rfl
@[simp] theorem conflictEval_view_lring (s : State) : (conflictEval s).view.lring = s.view.lring := rfl

/-! ### Fields that `dropOffer` leaves alone -/

@[simp] theorem dropOffer_life (s : State) : (dropOffer s).life = s.life := rfl
@[simp] theorem dropOffer_own (s : State) : (dropOffer s).own = s.own := rfl
@[simp] theorem dropOffer_cfg (s : State) : (dropOffer s).cfg = s.cfg := rfl
@[simp] theorem dropOffer_configClamped (s : State) : (dropOffer s).configClamped = s.configClamped := rfl
@[simp] theorem dropOffer_listen (s : State) : (dropOffer s).listen = s.listen := rfl
@[simp] theorem dropOffer_probe (s : State) : (dropOffer s).probe = s.probe := rfl
@[simp] theorem dropOffer_clock (s : State) : (dropOffer s).clock = s.clock := rfl
@[simp] theorem dropOffer_inputs (s : State) : (dropOffer s).inputs = s.inputs := rfl
@[simp] theorem dropOffer_view (s : State) : (dropOffer s).view = s.view := rfl
@[simp] theorem dropOffer_thrust (s : State) : (dropOffer s).thrust = s.thrust := rfl
@[simp] theorem dropOffer_build (s : State) : (dropOffer s).build = s.build := rfl
@[simp] theorem dropOffer_erector (s : State) : (dropOffer s).erector = s.erector := rfl
@[simp] theorem dropOffer_drive (s : State) : (dropOffer s).drive = s.drive := rfl
@[simp] theorem dropOffer_screw (s : State) : (dropOffer s).screw = s.screw := rfl
@[simp] theorem dropOffer_train (s : State) : (dropOffer s).train = s.train := rfl
@[simp] theorem dropOffer_grout (s : State) : (dropOffer s).grout = s.grout := rfl
@[simp] theorem dropOffer_records (s : State) : (dropOffer s).records = s.records := rfl
@[simp] theorem dropOffer_out (s : State) : (dropOffer s).out = s.out := rfl
@[simp] theorem dropOffer_pending (s : State) : (dropOffer s).pending = s.pending := rfl
@[simp] theorem dropOffer_bus_lastSource (s : State) : (dropOffer s).bus.lastSource = s.bus.lastSource := rfl
@[simp] theorem dropOffer_bus_faults (s : State) : (dropOffer s).bus.faults = s.bus.faults := rfl
@[simp] theorem dropOffer_bus_lineFault (s : State) : (dropOffer s).bus.lineFault = s.bus.lineFault := rfl
@[simp] theorem dropOffer_bus_page (s : State) : (dropOffer s).bus.page = s.bus.page := rfl

/-! ### Fields that `markCompletion` leaves alone -/

@[simp] theorem markCompletion_life (s : State) : (markCompletion s).life = s.life := rfl
@[simp] theorem markCompletion_own (s : State) : (markCompletion s).own = s.own := rfl
@[simp] theorem markCompletion_cfg (s : State) : (markCompletion s).cfg = s.cfg := rfl
@[simp] theorem markCompletion_configClamped (s : State) : (markCompletion s).configClamped = s.configClamped := rfl
@[simp] theorem markCompletion_listen (s : State) : (markCompletion s).listen = s.listen := rfl
@[simp] theorem markCompletion_clock (s : State) : (markCompletion s).clock = s.clock := rfl
@[simp] theorem markCompletion_inputs (s : State) : (markCompletion s).inputs = s.inputs := rfl
@[simp] theorem markCompletion_thrust (s : State) : (markCompletion s).thrust = s.thrust := rfl
@[simp] theorem markCompletion_build (s : State) : (markCompletion s).build = s.build := rfl
@[simp] theorem markCompletion_erector (s : State) : (markCompletion s).erector = s.erector := rfl
@[simp] theorem markCompletion_drive (s : State) : (markCompletion s).drive = s.drive := rfl
@[simp] theorem markCompletion_screw (s : State) : (markCompletion s).screw = s.screw := rfl
@[simp] theorem markCompletion_train (s : State) : (markCompletion s).train = s.train := rfl
@[simp] theorem markCompletion_grout (s : State) : (markCompletion s).grout = s.grout := rfl
@[simp] theorem markCompletion_records (s : State) : (markCompletion s).records = s.records := rfl
@[simp] theorem markCompletion_bus (s : State) : (markCompletion s).bus = s.bus := rfl
@[simp] theorem markCompletion_out (s : State) : (markCompletion s).out = s.out := rfl
@[simp] theorem markCompletion_pending (s : State) : (markCompletion s).pending = s.pending := rfl
@[simp] theorem markCompletion_view_peers (s : State) : (markCompletion s).view.peers = s.view.peers := rfl
@[simp] theorem markCompletion_view_trips (s : State) : (markCompletion s).view.trips = s.view.trips := rfl
@[simp] theorem markCompletion_view_blind (s : State) : (markCompletion s).view.blind = s.view.blind := rfl
@[simp] theorem markCompletion_view_heard (s : State) : (markCompletion s).view.heard = s.view.heard := rfl
@[simp] theorem markCompletion_view_silence (s : State) : (markCompletion s).view.silence = s.view.silence := rfl
@[simp] theorem markCompletion_view_screwConflict (s : State) :
    (markCompletion s).view.screwConflict = s.view.screwConflict := rfl
@[simp] theorem markCompletion_view_erectorConflict (s : State) :
    (markCompletion s).view.erectorConflict = s.view.erectorConflict := rfl
@[simp] theorem markCompletion_view_lring (s : State) : (markCompletion s).view.lring = s.view.lring := rfl

/-! ### Fields that `countSeconds` leaves alone -/

@[simp] theorem countSeconds_life (s : State) : (countSeconds s).life = s.life := rfl
@[simp] theorem countSeconds_own (s : State) : (countSeconds s).own = s.own := rfl
@[simp] theorem countSeconds_cfg (s : State) : (countSeconds s).cfg = s.cfg := rfl
@[simp] theorem countSeconds_configClamped (s : State) : (countSeconds s).configClamped = s.configClamped := rfl
@[simp] theorem countSeconds_listen (s : State) : (countSeconds s).listen = s.listen := rfl
@[simp] theorem countSeconds_probe (s : State) : (countSeconds s).probe = s.probe := rfl
@[simp] theorem countSeconds_clock (s : State) : (countSeconds s).clock = s.clock := rfl
@[simp] theorem countSeconds_inputs (s : State) : (countSeconds s).inputs = s.inputs := rfl
@[simp] theorem countSeconds_view (s : State) : (countSeconds s).view = s.view := rfl
@[simp] theorem countSeconds_thrust (s : State) : (countSeconds s).thrust = s.thrust := rfl
@[simp] theorem countSeconds_build (s : State) : (countSeconds s).build = s.build := rfl
@[simp] theorem countSeconds_erector (s : State) : (countSeconds s).erector = s.erector := rfl
@[simp] theorem countSeconds_drive (s : State) : (countSeconds s).drive = s.drive := rfl
@[simp] theorem countSeconds_screw (s : State) : (countSeconds s).screw = s.screw := rfl
@[simp] theorem countSeconds_train (s : State) : (countSeconds s).train = s.train := rfl
@[simp] theorem countSeconds_grout (s : State) : (countSeconds s).grout = s.grout := rfl
@[simp] theorem countSeconds_bus (s : State) : (countSeconds s).bus = s.bus := rfl
@[simp] theorem countSeconds_out (s : State) : (countSeconds s).out = s.out := rfl
@[simp] theorem countSeconds_pending (s : State) : (countSeconds s).pending = s.pending := rfl
@[simp] theorem countSeconds_records_ring (s : State) : (countSeconds s).records.ring = s.records.ring := rfl
@[simp] theorem countSeconds_records_history (s : State) : (countSeconds s).records.history = s.records.history := rfl
@[simp] theorem countSeconds_records_limits (s : State) : (countSeconds s).records.limits = s.records.limits := rfl
@[simp] theorem countSeconds_records_waitingLimits (s : State) :
    (countSeconds s).records.waitingLimits = s.records.waitingLimits := rfl
@[simp] theorem countSeconds_records_current_ring (s : State) :
    (countSeconds s).records.current.ring = s.records.current.ring := rfl
@[simp] theorem countSeconds_records_current_cause (s : State) :
    (countSeconds s).records.current.cause = s.records.current.cause := rfl
@[simp] theorem countSeconds_records_current_ownAdvance (s : State) :
    (countSeconds s).records.current.ownAdvance = s.records.current.ownAdvance := rfl
@[simp] theorem countSeconds_records_current_machineAdvance (s : State) :
    (countSeconds s).records.current.machineAdvance = s.records.current.machineAdvance := rfl
@[simp] theorem countSeconds_records_current_peakForce (s : State) :
    (countSeconds s).records.current.peakForce = s.records.current.peakForce := rfl
@[simp] theorem countSeconds_records_current_advanceAtLimit (s : State) :
    (countSeconds s).records.current.advanceAtLimit = s.records.current.advanceAtLimit := rfl
@[simp] theorem countSeconds_records_current_drive (s : State) :
    (countSeconds s).records.current.drive = s.records.current.drive := rfl
@[simp] theorem countSeconds_records_current_grout (s : State) :
    (countSeconds s).records.current.grout = s.records.current.grout := rfl
@[simp] theorem countSeconds_records_current_spoil (s : State) :
    (countSeconds s).records.current.spoil = s.records.current.spoil := rfl
@[simp] theorem countSeconds_records_current_build (s : State) :
    (countSeconds s).records.current.build = s.records.current.build := rfl

/-! ### Fields that `openBuildPart` leaves alone -/

@[simp] theorem openBuildPart_life (s : State) : (openBuildPart s).life = s.life := rfl
@[simp] theorem openBuildPart_own (s : State) : (openBuildPart s).own = s.own := rfl
@[simp] theorem openBuildPart_cfg (s : State) : (openBuildPart s).cfg = s.cfg := rfl
@[simp] theorem openBuildPart_configClamped (s : State) : (openBuildPart s).configClamped = s.configClamped := rfl
@[simp] theorem openBuildPart_listen (s : State) : (openBuildPart s).listen = s.listen := rfl
@[simp] theorem openBuildPart_probe (s : State) : (openBuildPart s).probe = s.probe := rfl
@[simp] theorem openBuildPart_clock (s : State) : (openBuildPart s).clock = s.clock := rfl
@[simp] theorem openBuildPart_inputs (s : State) : (openBuildPart s).inputs = s.inputs := rfl
@[simp] theorem openBuildPart_view (s : State) : (openBuildPart s).view = s.view := rfl
@[simp] theorem openBuildPart_thrust (s : State) : (openBuildPart s).thrust = s.thrust := rfl
@[simp] theorem openBuildPart_build (s : State) : (openBuildPart s).build = s.build := rfl
@[simp] theorem openBuildPart_erector (s : State) : (openBuildPart s).erector = s.erector := rfl
@[simp] theorem openBuildPart_drive (s : State) : (openBuildPart s).drive = s.drive := rfl
@[simp] theorem openBuildPart_screw (s : State) : (openBuildPart s).screw = s.screw := rfl
@[simp] theorem openBuildPart_train (s : State) : (openBuildPart s).train = s.train := rfl
@[simp] theorem openBuildPart_grout (s : State) : (openBuildPart s).grout = s.grout := rfl
@[simp] theorem openBuildPart_bus (s : State) : (openBuildPart s).bus = s.bus := rfl
@[simp] theorem openBuildPart_out (s : State) : (openBuildPart s).out = s.out := rfl
@[simp] theorem openBuildPart_pending (s : State) : (openBuildPart s).pending = s.pending := rfl
@[simp] theorem openBuildPart_records_ring (s : State) : (openBuildPart s).records.ring = s.records.ring := rfl
@[simp] theorem openBuildPart_records_history (s : State) :
    (openBuildPart s).records.history = s.records.history := rfl
@[simp] theorem openBuildPart_records_limits (s : State) : (openBuildPart s).records.limits = s.records.limits := rfl
@[simp] theorem openBuildPart_records_waitingLimits (s : State) :
    (openBuildPart s).records.waitingLimits = s.records.waitingLimits := rfl
@[simp] theorem openBuildPart_records_current_ring (s : State) :
    (openBuildPart s).records.current.ring = s.records.current.ring := rfl
@[simp] theorem openBuildPart_records_current_cause (s : State) :
    (openBuildPart s).records.current.cause = s.records.current.cause := rfl
@[simp] theorem openBuildPart_records_current_ownAdvance (s : State) :
    (openBuildPart s).records.current.ownAdvance = s.records.current.ownAdvance := rfl
@[simp] theorem openBuildPart_records_current_machineAdvance (s : State) :
    (openBuildPart s).records.current.machineAdvance = s.records.current.machineAdvance := rfl
@[simp] theorem openBuildPart_records_current_advanceSeconds (s : State) :
    (openBuildPart s).records.current.advanceSeconds = s.records.current.advanceSeconds := rfl
@[simp] theorem openBuildPart_records_current_buildSeconds (s : State) :
    (openBuildPart s).records.current.buildSeconds = s.records.current.buildSeconds := rfl
@[simp] theorem openBuildPart_records_current_peakForce (s : State) :
    (openBuildPart s).records.current.peakForce = s.records.current.peakForce := rfl
@[simp] theorem openBuildPart_records_current_advanceAtLimit (s : State) :
    (openBuildPart s).records.current.advanceAtLimit = s.records.current.advanceAtLimit := rfl
@[simp] theorem openBuildPart_records_current_drive (s : State) :
    (openBuildPart s).records.current.drive = s.records.current.drive := rfl
@[simp] theorem openBuildPart_records_current_grout (s : State) :
    (openBuildPart s).records.current.grout = s.records.current.grout := rfl
@[simp] theorem openBuildPart_records_current_spoil (s : State) :
    (openBuildPart s).records.current.spoil = s.records.current.spoil := rfl

/-! ### Fields that `lowerMismatches` leaves alone -/

@[simp] theorem lowerMismatches_life (s : State) : (lowerMismatches s).life = s.life := rfl
@[simp] theorem lowerMismatches_own (s : State) : (lowerMismatches s).own = s.own := rfl
@[simp] theorem lowerMismatches_cfg (s : State) : (lowerMismatches s).cfg = s.cfg := rfl
@[simp] theorem lowerMismatches_configClamped (s : State) : (lowerMismatches s).configClamped = s.configClamped := rfl
@[simp] theorem lowerMismatches_listen (s : State) : (lowerMismatches s).listen = s.listen := rfl
@[simp] theorem lowerMismatches_probe (s : State) : (lowerMismatches s).probe = s.probe := rfl
@[simp] theorem lowerMismatches_clock (s : State) : (lowerMismatches s).clock = s.clock := rfl
@[simp] theorem lowerMismatches_inputs (s : State) : (lowerMismatches s).inputs = s.inputs := rfl
@[simp] theorem lowerMismatches_view (s : State) : (lowerMismatches s).view = s.view := rfl
@[simp] theorem lowerMismatches_thrust (s : State) : (lowerMismatches s).thrust = s.thrust := rfl
@[simp] theorem lowerMismatches_drive (s : State) : (lowerMismatches s).drive = s.drive := rfl
@[simp] theorem lowerMismatches_screw (s : State) : (lowerMismatches s).screw = s.screw := rfl
@[simp] theorem lowerMismatches_train (s : State) : (lowerMismatches s).train = s.train := rfl
@[simp] theorem lowerMismatches_grout (s : State) : (lowerMismatches s).grout = s.grout := rfl
@[simp] theorem lowerMismatches_records (s : State) : (lowerMismatches s).records = s.records := rfl
@[simp] theorem lowerMismatches_bus (s : State) : (lowerMismatches s).bus = s.bus := rfl
@[simp] theorem lowerMismatches_out (s : State) : (lowerMismatches s).out = s.out := rfl
@[simp] theorem lowerMismatches_pending (s : State) : (lowerMismatches s).pending = s.pending := rfl
@[simp] theorem lowerMismatches_build_state (s : State) : (lowerMismatches s).build.state = s.build.state := rfl
@[simp] theorem lowerMismatches_build_planRing (s : State) :
    (lowerMismatches s).build.planRing = s.build.planRing := rfl
@[simp] theorem lowerMismatches_build_entries (s : State) : (lowerMismatches s).build.entries = s.build.entries := rfl
@[simp] theorem lowerMismatches_build_index (s : State) : (lowerMismatches s).build.index = s.build.index := rfl
@[simp] theorem lowerMismatches_build_margin (s : State) : (lowerMismatches s).build.margin = s.build.margin := rfl
@[simp] theorem lowerMismatches_build_retry (s : State) : (lowerMismatches s).build.retry = s.build.retry := rfl
@[simp] theorem lowerMismatches_build_marginLow (s : State) :
    (lowerMismatches s).build.marginLow = s.build.marginLow := rfl
@[simp] theorem lowerMismatches_erector_queue (s : State) : (lowerMismatches s).erector.queue = s.erector.queue := rfl
@[simp] theorem lowerMismatches_erector_arrival (s : State) :
    (lowerMismatches s).erector.arrival = s.erector.arrival := rfl
@[simp] theorem lowerMismatches_erector_seq (s : State) : (lowerMismatches s).erector.seq = s.erector.seq := rfl
@[simp] theorem lowerMismatches_erector_working (s : State) :
    (lowerMismatches s).erector.working = s.erector.working := rfl
@[simp] theorem lowerMismatches_erector_feederEmpty (s : State) :
    (lowerMismatches s).erector.feederEmpty = s.erector.feederEmpty := rfl
@[simp] theorem lowerMismatches_erector_feederOverfull (s : State) :
    (lowerMismatches s).erector.feederOverfull = s.erector.feederOverfull := rfl

/-! ### Fields that `idle` leaves alone -/

@[simp] theorem idle_life (s : State) : (idle s).life = s.life := rfl
@[simp] theorem idle_own (s : State) : (idle s).own = s.own := rfl
@[simp] theorem idle_cfg (s : State) : (idle s).cfg = s.cfg := rfl
@[simp] theorem idle_configClamped (s : State) : (idle s).configClamped = s.configClamped := rfl
@[simp] theorem idle_listen (s : State) : (idle s).listen = s.listen := rfl
@[simp] theorem idle_probe (s : State) : (idle s).probe = s.probe := rfl
@[simp] theorem idle_inputs (s : State) : (idle s).inputs = s.inputs := rfl
@[simp] theorem idle_view (s : State) : (idle s).view = s.view := rfl
@[simp] theorem idle_thrust (s : State) : (idle s).thrust = s.thrust := rfl
@[simp] theorem idle_build (s : State) : (idle s).build = s.build := rfl
@[simp] theorem idle_erector (s : State) : (idle s).erector = s.erector := rfl
@[simp] theorem idle_drive (s : State) : (idle s).drive = s.drive := rfl
@[simp] theorem idle_screw (s : State) : (idle s).screw = s.screw := rfl
@[simp] theorem idle_train (s : State) : (idle s).train = s.train := rfl
@[simp] theorem idle_grout (s : State) : (idle s).grout = s.grout := rfl
@[simp] theorem idle_records (s : State) : (idle s).records = s.records := rfl
@[simp] theorem idle_bus (s : State) : (idle s).bus = s.bus := rfl
@[simp] theorem idle_out (s : State) : (idle s).out = s.out := rfl
@[simp] theorem idle_pending (s : State) : (idle s).pending = s.pending := rfl
@[simp] theorem idle_clock_noticeDue (s : State) : (idle s).clock.noticeDue = s.clock.noticeDue := rfl
@[simp] theorem idle_clock_controlDue (s : State) : (idle s).clock.controlDue = s.clock.controlDue := rfl
@[simp] theorem idle_clock_driveDue (s : State) : (idle s).clock.driveDue = s.clock.driveDue := rfl

/-! ### Fields of the station as LISTENING begins -/

@[simp] theorem listeningWith_life (own : Nat) (c : ConfigValues) (b : Bool) (s : State) :
    (listeningWith own c b s).life = .listening := rfl
@[simp] theorem listeningWith_own (own : Nat) (c : ConfigValues) (b : Bool) (s : State) :
    (listeningWith own c b s).own = own := rfl
@[simp] theorem listeningWith_cfg (own : Nat) (c : ConfigValues) (b : Bool) (s : State) :
    (listeningWith own c b s).cfg = c := rfl
@[simp] theorem listeningWith_configClamped (own : Nat) (c : ConfigValues) (b : Bool) (s : State) :
    (listeningWith own c b s).configClamped = b := rfl
@[simp] theorem listeningWith_listen (own : Nat) (c : ConfigValues) (b : Bool) (s : State) :
    (listeningWith own c b s).listen = 0 := rfl
@[simp] theorem listeningWith_probe (own : Nat) (c : ConfigValues) (b : Bool) (s : State) :
    (listeningWith own c b s).probe = false := rfl
@[simp] theorem listeningWith_inputs (own : Nat) (c : ConfigValues) (b : Bool) (s : State) :
    (listeningWith own c b s).inputs = s.inputs := rfl
@[simp] theorem listeningWith_view (own : Nat) (c : ConfigValues) (b : Bool) (s : State) :
    (listeningWith own c b s).view = s.view := rfl
@[simp] theorem listeningWith_thrust (own : Nat) (c : ConfigValues) (b : Bool) (s : State) :
    (listeningWith own c b s).thrust = s.thrust := rfl
@[simp] theorem listeningWith_build (own : Nat) (c : ConfigValues) (b : Bool) (s : State) :
    (listeningWith own c b s).build = s.build := rfl
@[simp] theorem listeningWith_erector (own : Nat) (c : ConfigValues) (b : Bool) (s : State) :
    (listeningWith own c b s).erector = s.erector := rfl
@[simp] theorem listeningWith_screw (own : Nat) (c : ConfigValues) (b : Bool) (s : State) :
    (listeningWith own c b s).screw = s.screw := rfl
@[simp] theorem listeningWith_train (own : Nat) (c : ConfigValues) (b : Bool) (s : State) :
    (listeningWith own c b s).train = s.train := rfl
@[simp] theorem listeningWith_bus (own : Nat) (c : ConfigValues) (b : Bool) (s : State) :
    (listeningWith own c b s).bus = s.bus := rfl
@[simp] theorem listeningWith_out (own : Nat) (c : ConfigValues) (b : Bool) (s : State) :
    (listeningWith own c b s).out = s.out := rfl
@[simp] theorem listeningWith_pending (own : Nat) (c : ConfigValues) (b : Bool) (s : State) :
    (listeningWith own c b s).pending = s.pending := rfl
@[simp] theorem listeningWith_records_ring (own : Nat) (c : ConfigValues) (b : Bool) (s : State) :
    (listeningWith own c b s).records.ring = s.records.ring := rfl
@[simp] theorem listeningWith_records_history (own : Nat) (c : ConfigValues) (b : Bool) (s : State) :
    (listeningWith own c b s).records.history = s.records.history := rfl

end Sys2Proof.Machine
end

