-- ==== Sys2Proof/Laws/Ops.lean ====
section
/-! SUPPORT. Laws/Ops.lean: for each shared operation, everything it can do, said once: the requests to the thrust group,
the suspension of a build, the trip memory, BLIND, the line-fault count, and the transmit queue. -/

namespace Sys2Proof.Machine

open Sys2Proof

/-! ### Thrust group and build -/

/-- A RETRACT request withdraws a group in HOLD and does nothing in any other mode (02 R26, R27). -/
theorem retractRequest_cases (s : State) :
    (s.thrust.mode ≠ .hold ∧ retractRequest s = s)
      ∨ (s.thrust.mode = .hold
          ∧ retractRequest s = setMode (if s.inputs.retracted then .clear else .retracting) s) := by
  unfold retractRequest
  split
  · next h => exact .inr ⟨h, rfl⟩
  · next h => exact .inl ⟨h, rfl⟩

/-- A PRESS request presses a group in HOLD, RETRACTING or CLEAR, through to HOLD with the force reached, and does nothing
in any other mode (02 R26, R28). -/
theorem pressRequest_cases (s : State) :
    pressRequest s = s ∨ pressRequest s = setMode .pressing s
      ∨ (s.cfg.pressForce ≤ s.inputs.force ∧ pressRequest s = setMode .hold (setMode .pressing s)) := by
  unfold pressRequest
  split
  · split
    · next h => exact .inr (.inr ⟨h, rfl⟩)
    · exact .inr (.inl rfl)
  · split
    · next h => exact .inr (.inr ⟨h, rfl⟩)
    · exact .inr (.inl rfl)
  · split
    · next h => exact .inr (.inr ⟨h, rfl⟩)
    · exact .inr (.inl rfl)
  · exact .inl rfl

/-- Pressing leaves no group withdrawn (02 R26). -/
theorem withdrawn_pressIfWithdrawn (s : State) : withdrawn (pressIfWithdrawn s) = false := by
  unfold pressIfWithdrawn
  split
  · next h =>
    unfold pressRequest
    split
    · next e => simp [withdrawn, e] at h
    · split <;> simp [withdrawn]
    · split <;> simp [withdrawn]
    · next h1 h2 h3 => simp [withdrawn] at h; rcases h with h | h <;> contradiction
  · next h => simpa using h

/-- A retraction decision is a RETRACT request at a group in HOLD whose conditions hold, or nothing (03 R52). -/
theorem decideRetract_cases (s : State) :
    decideRetract s = s
      ∨ (s.build.state = .building ∧ ownCovered s = true ∧ currentEntryState s = some .pending ∧ s.thrust.mode = .hold
          ∧ s.view.trips = [] ∧ s.view.blind = false ∧ s.build.retry = none ∧ marginMet s = true
          ∧ decideRetract s = setMode (if s.inputs.retracted then .clear else .retracting) s) := by
  unfold decideRetract
  split
  · next h =>
    simp only [Bool.and_eq_true, decide_eq_true_eq, Bool.not_eq_true', tripInView, Bool.not_eq_false',
      List.isEmpty_iff, Option.isNone_iff_eq_none] at h
    obtain ⟨⟨⟨⟨⟨⟨⟨h1, h2⟩, h3⟩, h4⟩, h5⟩, h6⟩, h7⟩, h8⟩ := h
    refine .inr ⟨h1, h2, h3, h4, h5, h6, h7, h8, ?_⟩
    simp [retractRequest, h4]
  · exact .inl rfl

/-- A suspension does nothing outside BUILDING; in BUILDING it sets SUSPENDED, ends the retry wait, flags the record, and
presses a withdrawn group whose entry is PENDING or EMPTY (03 R46). -/
theorem suspendBuild_cases (s : State) :
    (s.build.state ≠ .building ∧ suspendBuild s = s)
      ∨ (s.build.state = .building
          ∧ ∃ p, (p = s ∨ p = pressIfWithdrawn s)
              ∧ suspendBuild s =
                  onBuildPart (fun b => { b with suspended := true })
                    { p with build := { p.build with state := .suspended, retry := none } }) := by
  unfold suspendBuild
  split
  · next h =>
    refine .inr ⟨h, ?_⟩
    dsimp only
    split
    · exact ⟨_, .inr rfl, rfl⟩
    · exact ⟨_, .inr rfl, rfl⟩
    · exact ⟨_, .inl rfl, rfl⟩
  · next h => exact .inl ⟨h, rfl⟩

/-- After a suspension no build is BUILDING (03 R46). -/
theorem suspendBuild_not_building (s : State) : (suspendBuild s).build.state ≠ .building := by
  rcases suspendBuild_cases s with ⟨h, e⟩ | ⟨_, p, _, e⟩
  · rw [e]; exact h
  · rw [e]; simp [onBuildPart]

/-- The trip memory takes its new pairs; the first pair suspends a build (01 R15, 03 R46). -/
theorem setTrips_cases (l : List TripPair) (s : State) :
    (setTrips l s = { s with view := { s.view with trips := l } } ∧ (s.view.trips ≠ [] ∨ l = []))
      ∨ (setTrips l s = suspendBuild { s with view := { s.view with trips := l } } ∧ s.view.trips = [] ∧ l ≠ []) := by
  unfold setTrips
  dsimp only
  split
  · next h => simp at h; exact .inr ⟨rfl, h.1, h.2⟩
  · next h => simp at h; exact .inl ⟨rfl, by by_cases e : s.view.trips = [] <;> simp_all⟩

/-- Entering BLIND sets it, clears the completion marker and suspends a build; a BLIND station is left alone (01 R17). -/
theorem enterBlind_cases (s : State) :
    (s.view.blind = true ∧ enterBlind s = s)
      ∨ (s.view.blind = false
          ∧ enterBlind s = suspendBuild { s with view := { s.view with blind := true, completion := false } }) := by
  unfold enterBlind
  split
  · next h => exact .inl ⟨h, rfl⟩
  · next h => exact .inr ⟨by simpa using h, rfl⟩

/-- One more line fault is counted, to at most 16; the sixteenth raises the condition (10 R154). -/
theorem countFault_cases (s : State) :
    countFault s = { s with bus := { s.bus with faults := min (s.bus.faults + 1) 16 } }
      ∨ (15 ≤ s.bus.faults ∧ s.bus.lineFault = false
          ∧ countFault s = raiseLineFault { s with bus := { s.bus with faults := min (s.bus.faults + 1) 16 } }) := by
  unfold countFault
  dsimp only
  split
  · next h =>
    simp at h
    exact .inr ⟨by omega, h.2, rfl⟩
  · exact .inl rfl

/-! ### Transmit queue -/

/-- The classes of a queue, head first. -/
def classesInOrder (q : List QueueItem) : Prop := q.Pairwise (fun x y => noticeClass x.notice ≤ noticeClass y.notice)

/-- The notices of a queue that wait. -/
def waiting (q : List QueueItem) : List QueueItem := q.filter (fun x => !x.offering)

theorem mem_insertNotice {n : TxNotice} {q : List QueueItem} {x : QueueItem} :
    x ∈ insertNotice n q ↔ x = { notice := n, offering := false } ∨ x ∈ q := by
  induction q with
  | nil => simp [insertNotice]
  | cons y ys ih =>
    unfold insertNotice
    split
    · simp only [List.mem_cons, ih]; tauto
    · simp only [List.mem_cons]

@[simp] theorem length_insertNotice (n : TxNotice) (q : List QueueItem) : (insertNotice n q).length = q.length + 1 := by
  induction q with
  | nil => rfl
  | cons y ys ih => unfold insertNotice; split <;> simp [ih]

/-- A notice takes its place by class among those that wait, behind those of its own class (10 R158). -/
theorem insertNotice_inOrder (n : TxNotice) {q : List QueueItem} (h : classesInOrder (waiting q)) :
    classesInOrder (waiting (insertNotice n q)) := by
  induction q with
  | nil => simp [insertNotice, classesInOrder, waiting]
  | cons y ys ih =>
    unfold insertNotice
    cases ho : y.offering with
    | true =>
      simp only [waiting, ho, Bool.true_or, if_true, List.filter_cons, Bool.not_true, Bool.false_eq_true,
        if_false] at h ih ⊢
      exact ih h
    | false =>
      have hq : waiting (y :: ys) = y :: waiting ys := by simp [waiting, ho]
      rw [hq] at h
      obtain ⟨h1, h2⟩ := List.pairwise_cons.1 h
      simp only [Bool.false_or, decide_eq_true_eq]
      split
      · next hy =>
        have e : waiting (y :: insertNotice n ys) = y :: waiting (insertNotice n ys) := by simp [waiting, ho]
        rw [e]
        refine List.pairwise_cons.2 ⟨fun x hx => ?_, ih h2⟩
        rcases mem_insertNotice.1 (List.mem_filter.1 hx).1 with rfl | hm
        · exact hy
        · exact h1 x (List.mem_filter.2 ⟨hm, (List.mem_filter.1 hx).2⟩)
      · next hy =>
        have e : waiting ({ notice := n, offering := false } :: y :: ys)
            = { notice := n, offering := false } :: y :: waiting ys := by simp [waiting, ho]
        rw [e]
        refine List.pairwise_cons.2 ⟨fun x hx => ?_, h⟩
        rcases List.mem_cons.1 hx with rfl | hx
        · exact Nat.le_of_lt (Nat.lt_of_not_le hy)
        · exact Nat.le_trans (Nat.le_of_lt (Nat.lt_of_not_le hy)) (h1 x hx)

/-- A notice that joins the queue leaves the one on offer first (10 R158). -/
theorem insertNotice_onOffer (n : TxNotice) {x : QueueItem} {xs : List QueueItem} (h : x.offering = true) :
    insertNotice n (x :: xs) = x :: insertNotice n xs := by
  simp [insertNotice, h]

/-- An offer that does not complete leaves its notice waiting, first of its class (10 R158, log 33). -/
theorem endOffer_onOffer {x : QueueItem} {xs : List QueueItem} (h : x.offering = true) :
    endOffer (x :: xs) = waitingAgain x xs := by
  simp [endOffer, waitingAgain, h]

theorem dropNewest_sublist (p : QueueItem → Bool) (q : List QueueItem) : (dropNewest p q).Sublist q := by
  unfold dropNewest
  simpa using (List.eraseP_sublist (p := p) (l := q.reverse)).reverse

/-- Queueing a notice inserts it into a sublist of the queue, or leaves the full queue alone (10 R158, R159). -/
theorem queueAfter_cases (n : TxNotice) (q : List QueueItem) :
    (∃ r, r.Sublist q ∧ queueAfter n q = insertNotice n r) ∨ (6 ≤ q.length ∧ queueAfter n q = q) := by
  unfold queueAfter
  split
  · exact .inl ⟨q, List.Sublist.refl q, rfl⟩
  · next h =>
    split
    · exact .inl ⟨_, List.eraseP_sublist, rfl⟩
    · split
      · exact .inl ⟨_, dropNewest_sublist _ _, rfl⟩
      · exact .inr ⟨Nat.le_of_not_lt h, rfl⟩

/-- Queueing a notice keeps the queue's bound (10 R158). -/
theorem queueAfter_length_le (n : TxNotice) {q : List QueueItem} (h : q.length ≤ 6) : (queueAfter n q).length ≤ 6 := by
  unfold queueAfter
  split
  · next hq => simp; omega
  · split
    · next hw =>
      obtain ⟨x, hx, hp⟩ := List.any_eq_true.1 hw
      have := List.length_eraseP_of_mem hx hp
      simp; omega
    · split
      · next hw =>
        simp only [Bool.and_eq_true] at hw
        obtain ⟨x, hx, hp⟩ := List.any_eq_true.1 hw.2
        have := List.length_eraseP_of_mem (List.mem_reverse.2 hx) hp
        simp [dropNewest] at this ⊢; omega
      · exact h

/-- Queueing a notice keeps the queue in order of class (10 R158). -/
theorem queueAfter_inOrder (n : TxNotice) {q : List QueueItem} (h : classesInOrder (waiting q)) :
    classesInOrder (waiting (queueAfter n q)) := by
  rcases queueAfter_cases n q with ⟨r, hr, e⟩ | ⟨_, e⟩
  · rw [e]; exact insertNotice_inOrder n (List.Pairwise.sublist (hr.filter _) h)
  · rw [e]; exact h

/-- In a queue that is not full a notice finds its place (10 R158). -/
theorem mem_queueAfter (n : TxNotice) {q : List QueueItem} (h : q.length < 6) :
    { notice := n, offering := false } ∈ queueAfter n q := by
  unfold queueAfter
  rw [if_pos h]
  exact mem_insertNotice.2 (.inl rfl)

/-- A notice of the units joins the queue, or is lost to a full one, and puts out at most a waiting STATE (10 R158, R159). -/
theorem queueKept_enqueue {n : TxNotice} (h : isUnitNotice n = true) (s : State) :
    QueueKept s.bus.queue (enqueue n s) := by
  have hc : noticeClass n = 1 := by cases n <;> simp_all [isUnitNotice, noticeClass]
  have sub : ∀ q : List QueueItem, q.Sublist (insertNotice n q) := by
    intro q
    induction q with
    | nil => exact List.nil_sublist _
    | cons y ys ih =>
      unfold insertNotice
      split
      · exact ih.cons_cons y
      · exact (List.Sublist.refl _).cons _
  have keep : ∀ q : List QueueItem,
      q.filter (fun x => noticeClass x.notice ≠ 2) = (q.eraseP waitingState).filter (fun x => noticeClass x.notice ≠ 2) := by
    intro q
    induction q with
    | nil => rfl
    | cons y ys ih =>
      by_cases hy : waitingState y = true
      · have : noticeClass y.notice = 2 := by
          simp only [waitingState, Bool.and_eq_true, decide_eq_true_eq] at hy
          rw [hy.1]; rfl
        simp [hy, this]
      · simp only [List.eraseP_cons_of_neg hy, List.filter_cons, ih]
  simp only [QueueKept, enqueue, queueAfter, hc]
  split
  · refine ⟨List.filter_sublist.trans (sub _), .inl (sub _), fun x hx => ?_⟩
    rcases mem_insertNotice.1 hx with e | e
    · exact .inr (by simp [e, h])
    · exact .inl e
  · next hl =>
    split
    · next hw =>
      refine ⟨?_, .inr ?_, fun x hx => ?_⟩
      · rw [keep]
        exact List.filter_sublist.trans (sub _)
      · obtain ⟨a, ha, hp⟩ := List.any_eq_true.1 hw
        rw [length_insertNotice, List.length_eraseP_of_mem ha hp]
        omega
      · rcases mem_insertNotice.1 hx with e | e
        · exact .inr (by simp [e, h])
        · exact .inl (List.mem_of_mem_eraseP e)
    · exact ⟨by simp [List.filter_sublist], .inl (by simp), fun x hx => .inl (by simpa using hx)⟩

/-- What two operations in turn leave of the queue. -/
theorem QueueKept.trans {q : List QueueItem} {t u : State} (h : QueueKept q t) (k : QueueKept t.bus.queue u) :
    QueueKept q u := by
  obtain ⟨h1, h2, h3⟩ := h
  obtain ⟨k1, k2, k3⟩ := k
  refine ⟨?_, ?_, fun x hx => ?_⟩
  · have := h1.filter (fun x => noticeClass x.notice ≠ 2)
    rw [List.filter_filter] at this
    simpa using this.trans k1
  · rcases h2 with h2 | h2
    · rcases k2 with k2 | k2
      · exact .inl (h2.trans k2)
      · exact .inr k2
    · rcases k2 with k2 | k2
      · exact .inr (h2.trans k2.length_le)
      · exact .inr k2
  · rcases k3 x hx with e | e
    · exact h3 x e
    · exact .inr e

/-! ### Erector sequence passed by -/

/-- A sequence in AWAITING PRESS whose entry another way has set stands down, and nothing else does (04 R74). -/
theorem pressPassed_cases (s : State) :
    pressPassed s = s
      ∨ (∃ w, s.erector.working = some w ∧ s.erector.seq = .awaitingPress ∧ passedBy w s = true
          ∧ pressPassed s = standDown s) := by
  unfold pressPassed
  split
  · next w hw =>
    split
    · next h => simp at h; exact .inr ⟨w, hw, h.1, h.2, rfl⟩
    · exact .inl rfl
  · exact .inl rfl

/-- Before a close every sequence whose entry the KEY's SET has passed stands down, and nothing else does (04 R73, R74). -/
theorem sequencePassed_cases (s : State) :
    sequencePassed s = s
      ∨ (∃ w, s.erector.working = some w ∧ s.erector.seq ≠ .standby ∧ passedBy w s = true
          ∧ sequencePassed s = standDown s) := by
  unfold sequencePassed
  split
  · next w hw =>
    split
    · next h => simp at h; exact .inr ⟨w, hw, h.1, h.2, rfl⟩
    · exact .inl rfl
  · exact .inl rfl

end Sys2Proof.Machine
end

