-- ==== Sys2Proof/Laws/Command.lean ====
section
/-! SUPPORT. Laws/Command.lean: how a COMMAND is taken and answered, said once: the operand fields of bytes laid out most
significant first, the clamped result, the REPLY, and the order of the checks. -/

namespace Sys2Proof.Machine

open Sys2Proof

/-! ### Operand fields -/

@[simp] theorem length_beBytes (k n : Nat) : (beBytes k n).length = k := by
  induction k with
  | zero => rfl
  | succ k ih => simp [beBytes, ih]

/-- A number laid out in `k` bytes and read back is that number modulo 256^k (10 section 10.6). -/
theorem beNat_beBytes (k n : Nat) : beNat (beBytes k n) = n % 256 ^ k := by
  induction k with
  | zero => simp [beBytes, beNat, Nat.mod_one]
  | succ k ih =>
    have hb : (byteOf (n / 256 ^ k)).toNat = n / 256 ^ k % 256 := by simp [byteOf]
    simp only [beBytes, beNat, length_beBytes, ih, hb]
    rw [Nat.pow_succ, Nat.mod_mul]
    ring

/-- The first operand of a command whose bytes begin with it (11 R161). -/
@[simp] theorem splitFields_beBytes (k : Nat) (ks : List Nat) (n : Nat) (bs : List Byte) :
    splitFields (k :: ks) (beBytes k n ++ bs) = (splitFields ks bs).map (n % 256 ^ k :: ·) := by
  have hl : ¬(beBytes k n ++ bs).length < k := by simp
  have ht : (beBytes k n ++ bs).take k = beBytes k n := by
    rw [List.take_append_of_le_length (by simp), List.take_of_length_le (by simp)]
  have hd : (beBytes k n ++ bs).drop k = bs := by
    simp
  rw [splitFields, if_neg hl, ht, hd, beNat_beBytes]

@[simp] theorem splitFields_nil : splitFields [] [] = some [] := rfl

@[simp] theorem splitFields_last (k n : Nat) : splitFields [k] (beBytes k n) = some [n % 256 ^ k] := by
  have := splitFields_beBytes k [] n []
  simpa using this

/-- The form check passes exactly on operands of the catalogue's length (11 R161). -/
theorem splitFields_isSome (ks : List Nat) (bs : List Byte) : (splitFields ks bs).isSome ↔ bs.length = ks.sum := by
  induction ks generalizing bs with
  | nil => cases bs <;> simp [splitFields]
  | cons k ks ih =>
    unfold splitFields
    split
    · next h => simp; omega
    · next h =>
      rw [Option.isSome_map, ih, List.length_drop, List.sum_cons]
      omega

/-! ### Results and replies -/

/-- CLAMPED names the first operand whose value was changed (11 R163). -/
theorem firstChanged_shift (i : Nat) (l : List (Nat × Nat)) :
    firstChanged (i + 1) l = (firstChanged i l).map (· + 1) := by
  induction l generalizing i with
  | nil => rfl
  | cons a l ih =>
    obtain ⟨g, u⟩ := a
    unfold firstChanged
    split
    · exact ih (i + 1)
    · rfl

/-- The clamped result, in the terms of the statements (11 R163). -/
theorem setpointResult_eq {owner : Result} (h : ∀ p, owner ≠ .clamped p) (l : List (Nat × Nat)) :
    setpointResult owner l = clampedOr owner l := by
  induction l with
  | nil => rfl
  | cons a l ih =>
    obtain ⟨g, u⟩ := a
    unfold setpointResult firstChanged clampedOr
    by_cases e : g = u
    · rw [if_pos e, if_neg (by simpa using e), ← ih, firstChanged_shift]
      unfold setpointResult
      cases firstChanged 0 l with
      | none => cases owner <;> simp_all
      | some p => rfl
    · rw [if_neg e, if_pos (by simpa using e)]

/-- Queueing REPLY notices changes the transmit queue and nothing else. -/
theorem queueReplies_shape (h : CmdHead) (n : Nat) (r : Result) (d : List (List Byte)) (s : State) :
    ∃ q, queueReplies h n r d s = { s with bus := { s.bus with queue := q } } := by
  unfold queueReplies
  induction d generalizing s with
  | nil => exact ⟨s.bus.queue, rfl⟩
  | cons x d ih =>
    obtain ⟨q, hq⟩ := ih (enqueue (.reply h.source n h.tag r x) s)
    exact ⟨q, hq⟩

/-- An answer leaves the station as the owner's effect left it, the transmit queue apart (11 R164). -/
theorem answer_shape (h : CmdHead) (n : Nat) (a : Answer) :
    ∃ q, answer h n a = { a.state with bus := { a.state.bus with queue := q } } := by
  unfold answer
  split
  · exact queueReplies_shape h n a.result a.data a.state
  · exact ⟨a.state.bus.queue, rfl⟩

/-- A refusal is the REPLY alone (11 R162, R164). -/
theorem answer_refuse (h : CmdHead) (n : Nat) {r : Result} (hr : r ≠ .done) (s : State) :
    answer h n (refuse r s) = replyOnly h n r s := by
  simp [answer, refuse, replies, hr, queueReplies, replyOnly]

/-- A command answered DONE without an effect (11 R164). -/
theorem answer_done (h : CmdHead) (n : Nat) (s : State) : answer h n (done s) = doneOnly h n s := by
  unfold answer done replies doneOnly replyOnly
  cases h.toAll <;> simp [queueReplies]

/-! ### The checks -/

/-- A command in STARTING is dropped (11 R161). -/
theorem takeCommand_starting {s : State} (hs : s.life = .starting) (c : Command) (h : CmdHead) (ops : List Byte) :
    takeCommand c h ops s = s := by
  simp [takeCommand, hs]

/-- A command of the wrong length is refused OUT OF RANGE with position 15 (11 R161). -/
theorem takeCommand_form {s : State} (hs : s.life ≠ .starting) {c : Command} {ops : List Byte}
    (hf : splitFields (c.sizes ops) ops = none) (h : CmdHead) :
    takeCommand c h ops s = replyOnly h c.number (.outOfRange 15) s := by
  simp only [takeCommand, if_neg hs, hf]
  exact answer_refuse h c.number (by simp) s

/-- The checks of a command of good form, in their order (11 R162). -/
theorem takeCommand_checks {s : State} (hs : s.life ≠ .starting) {c : Command} {ops : List Byte} {args : List Nat}
    (hf : splitFields (c.sizes ops) ops = some args) (h : CmdHead) :
    takeCommand c h ops s =
      if c.permitted h.source args = false then replyOnly h c.number .notPermitted s
      else if s.life ≠ .ready then replyOnly h c.number .notReady s
      else if c.needs args s.cfg.roles = false then replyOnly h c.number .notApplicable s
      else
        match c.range args s with
        | some p => replyOnly h c.number (.outOfRange p) s
        | none => answer h c.number (c.owner args s) := by
  simp only [takeCommand, if_neg hs, hf]
  by_cases h1 : c.permitted h.source args = false
  · simp only [h1, Bool.not_false, if_true]
    exact answer_refuse h c.number (by simp) s
  · by_cases h2 : s.life = .ready
    · by_cases h3 : c.needs args s.cfg.roles = false
      · simp only [h1, h2, h3, Bool.not_false, if_true, if_false, ne_eq, not_true_eq_false]
        simp only [Bool.not_eq_false] at h1
        simp only [Bool.not_true, Bool.false_eq_true, if_false]
        exact answer_refuse h c.number (by simp) s
      · simp only [Bool.not_eq_false] at h1 h3
        simp only [h1, h2, h3, Bool.not_true, Bool.false_eq_true, if_false, ne_eq, not_true_eq_false, reduceCtorEq]
        cases c.range args s with
        | none => rfl
        | some p => exact answer_refuse h c.number (by simp) s
    · simp only [Bool.not_eq_false] at h1
      simp only [h1, h2, Bool.not_true, Bool.false_eq_true, if_false, ne_eq, not_false_eq_true, if_true, reduceCtorEq]
      exact answer_refuse h c.number (by simp) s

end Sys2Proof.Machine
end

