-- ==== Sys2Proof/Laws/Settle.lean ====
section
/-! SUPPORT. Laws/Settle.lean: what the evaluation of the units that ends an event leaves alone: the base of a station in
every case, the figures of the ring unless the erector waits to send SET, and plan, erector, drive, screw and train unit at
a station without the ERECTOR role. `settle_frame` says it once for all statements. -/

namespace Sys2Proof.Machine

open Sys2Proof

/-! ### The base -/

@[simp] theorem base_enqueue (n : TxNotice) (s : State) : baseOf (enqueue n s) = baseOf s := rfl
@[simp] theorem base_setMode (m : GroupMode) (s : State) : baseOf (setMode m s) = baseOf s := rfl
@[simp] theorem base_onBuildPart (f : BuildPart → BuildPart) (s : State) : baseOf (onBuildPart f s) = baseOf s := rfl
@[simp] theorem base_onSpoilPart (f : SpoilPart → SpoilPart) (s : State) : baseOf (onSpoilPart f s) = baseOf s := rfl
@[simp] theorem base_onGroutPart (f : GroutPart → GroutPart) (s : State) : baseOf (onGroutPart f s) = baseOf s := rfl
@[simp] theorem base_raiseMismatch (s : State) : baseOf (raiseMismatch s) = baseOf s := rfl
@[simp] theorem base_setSeq (q : SeqState) (s : State) : baseOf (setSeq q s) = baseOf s := rfl
@[simp] theorem base_setEntryState (x : EntryState) (s : State) : baseOf (setEntryState x s) = baseOf s := rfl
@[simp] theorem base_moveIndex (i : Nat) (s : State) : baseOf (moveIndex i s) = baseOf s := rfl
@[simp] theorem base_holdsEval (s : State) : baseOf (holdsEval s) = baseOf s := rfl
@[simp] theorem base_limitEval (s : State) : baseOf (limitEval s) = baseOf s := rfl
@[simp] theorem base_setOutputs (s : State) : baseOf (setOutputs s) = baseOf s := rfl
@[simp] theorem base_syncRecord (s : State) : baseOf (syncRecord s) = baseOf s := rfl
@[simp] theorem base_supportEval (s : State) : baseOf (supportEval s) = baseOf s := rfl
@[simp] theorem base_openUnits (s : State) : baseOf (openUnits s) = baseOf s := rfl
@[simp] theorem base_storeAndOpen (r : Nat) (c : OpeningCause) (s : State) : baseOf (storeAndOpen r c s) = baseOf s := rfl
@[simp] theorem base_groutSettingsAtClose (s : State) : baseOf (groutSettingsAtClose s) = baseOf s := rfl
@[simp] theorem base_groutTotals (s : State) : baseOf (groutTotals s) = baseOf s := rfl
@[simp] theorem base_fixEntriesSet (s : State) : baseOf (fixEntriesSet s) = baseOf s := rfl
@[simp] theorem base_accountSpoil (s : State) : baseOf (accountSpoil s) = baseOf s := rfl

@[simp] theorem base_updateRingAdvance (s : State) : baseOf (updateRingAdvance s) = baseOf s := by
  unfold updateRingAdvance; split <;> rfl

@[simp] theorem base_judgeOver_false (s : State) : baseOf (judgeOver false s) = baseOf s := rfl

/-- A change to a line state that keeps the pot-life timer: ARMED, INJECTING, TRIPPED. -/
theorem base_setLine {l : LineState} (h : (decide (l = .closed) || decide (l = .flushing)) = false) (s : State) :
    baseOf (setLine l s) = baseOf s := by
  simp [baseOf, setLine, h]

@[simp] theorem base_judgeLinePressure (s : State) : baseOf (judgeLinePressure s) = baseOf s := by
  unfold judgeLinePressure
  split
  · simp only [tripLine, base_onGroutPart]; exact base_setLine (by decide) s
  · rfl

@[simp] theorem base_tailEval (s : State) : baseOf (tailEval s) = baseOf s := by
  unfold tailEval; split
  · split <;> rfl
  · rfl

@[simp] theorem base_injectionEval (s : State) : baseOf (injectionEval s) = baseOf s := by
  unfold injectionEval
  dsimp only
  split
  · split
    · rw [base_setLine (by decide), base_tailEval]
    · rw [base_tailEval]
  · split
    · rw [base_tailEval]
    · rw [base_setLine (by decide), base_tailEval]
  · rw [base_tailEval]

@[simp] theorem base_driveEval (s : State) : baseOf (driveEval s) = baseOf s := by unfold driveEval; split <;> rfl

@[simp] theorem base_pressureBlindEval (s : State) : baseOf (pressureBlindEval s) = baseOf s := by
  unfold pressureBlindEval; dsimp only; split <;> rfl

@[simp] theorem base_setScrew (x : ScrewState) (s : State) : baseOf (setScrew x s) = baseOf s := by
  unfold setScrew; split <;> rfl

@[simp] theorem base_screwEval (s : State) : baseOf (screwEval s) = baseOf s := by
  unfold screwEval; split
  · simp
  · rfl

@[simp] theorem base_setPace (p : Pace) (s : State) : baseOf (setPace p s) = baseOf s := by
  unfold setPace; split
  · rfl
  · dsimp only; split <;> rfl

@[simp] theorem base_trainEval (s : State) : baseOf (trainEval s) = baseOf s := by
  unfold trainEval; split
  · rw [base_setPace]; rfl
  · rfl

@[simp] theorem base_advanceEval (s : State) : baseOf (advanceEval s) = baseOf s := by
  unfold advanceEval; split
  · split <;> rfl
  · split <;> rfl
  · rfl

@[simp] theorem base_unitsEval (lim : Bool) (s : State) : baseOf (unitsEval lim s) = baseOf s := by
  unfold unitsEval; cases lim <;> simp

@[simp] theorem base_retractRequest (s : State) : baseOf (retractRequest s) = baseOf s := by
  unfold retractRequest; split <;> rfl

@[simp] theorem base_pressRequest (s : State) : baseOf (pressRequest s) = baseOf s := by
  unfold pressRequest; split <;> (try split) <;> rfl

@[simp] theorem base_pressIfWithdrawn (s : State) : baseOf (pressIfWithdrawn s) = baseOf s := by
  unfold pressIfWithdrawn; split <;> simp

@[simp] theorem base_suspendBuild (s : State) : baseOf (suspendBuild s) = baseOf s := by
  unfold suspendBuild; split
  · rw [base_onBuildPart]; split
    · exact base_pressIfWithdrawn s
    · exact base_pressIfWithdrawn s
    · rfl
  · rfl

@[simp] theorem base_judgeEmpty (s : State) : baseOf (judgeEmpty s) = baseOf s := by
  unfold judgeEmpty; split <;> simp

@[simp] theorem base_standDown (s : State) : baseOf (standDown s) = baseOf s := rfl

@[simp] theorem base_sequencePassed (s : State) : baseOf (sequencePassed s) = baseOf s := by
  unfold sequencePassed; split
  · split <;> rfl
  · rfl

@[simp] theorem base_pressPassed (s : State) : baseOf (pressPassed s) = baseOf s := by
  unfold pressPassed; split
  · split <;> rfl
  · rfl

@[simp] theorem base_catchUp (j : Nat) (s : State) : baseOf (catchUp j s) = baseOf s := by
  unfold catchUp; simp

@[simp] theorem base_decideRetract (s : State) : baseOf (decideRetract s) = baseOf s := by
  unfold decideRetract; split <;> simp

@[simp] theorem base_abortWithdrawal (s : State) : baseOf (abortWithdrawal s) = baseOf s := by
  unfold abortWithdrawal; exact base_pressRequest s

@[simp] theorem base_closeRing (r : Nat) (c : OpeningCause) (s : State) : baseOf (closeRing r c s) = baseOf s := by
  unfold closeRing; simp

@[simp] theorem base_setEntry (e : PlanEntry) (s : State) : baseOf (setEntry e s) = baseOf s := by
  unfold setEntry; dsimp only; split <;> simp

@[simp] theorem base_releaseEntry (s : State) : baseOf (releaseEntry s) = baseOf s := by
  unfold releaseEntry; dsimp only; split
  · split
    · simp
    · split <;> simp
  · simp

@[simp] theorem base_placeEntry (s : State) : baseOf (placeEntry s) = baseOf s := by
  unfold placeEntry; dsimp only; split <;> simp

@[simp] theorem base_applyAction (a : StepAction) (s : State) : baseOf (applyAction a s) = baseOf s := by
  unfold applyAction; split
  · rfl
  · split <;> simp

@[simp] theorem base_judgeStep (a : StepAction) (r i : Nat) (s : State) : baseOf (judgeStep a r i s) = baseOf s := by
  unfold judgeStep
  repeat' split
  all_goals simp

@[simp] theorem base_takeStep (a : StepAction) (r i : Nat) (s : State) : baseOf (takeStep a r i s) = baseOf s := by
  unfold takeStep; simp

@[simp] theorem base_issueStep (a : StepAction) (w : Working) (s : State) : baseOf (issueStep a w s) = baseOf s := by
  unfold issueStep; simp

@[simp] theorem base_leaveStandby (s : State) : baseOf (leaveStandby s) = baseOf s := by
  unfold leaveStandby
  repeat' split
  all_goals rfl

@[simp] theorem base_placingTest (w : Working) (s : State) : baseOf (placingTest w s) = baseOf s := by
  unfold placingTest; split
  · rfl
  · split
    · simp
    · rw [base_suspendBuild]; rfl

@[simp] theorem base_seqStep (s : State) : baseOf (seqStep s) = baseOf s := by
  unfold seqStep
  repeat' split
  all_goals simp

@[simp] theorem base_seqSteps (n : Nat) (s : State) : baseOf (seqSteps n s) = baseOf s := by
  induction n generalizing s with
  | zero => rfl
  | succ n ih => unfold seqSteps; split <;> simp [ih]

@[simp] theorem base_erectorEval (s : State) : baseOf (erectorEval s) = baseOf s := by
  unfold erectorEval; split <;> simp

/-- The evaluation of the units leaves the base alone. -/
@[simp] theorem base_settle (lim : Bool) (s : State) : baseOf (settle lim s) = baseOf s := by
  unfold settle; split <;> simp

/-! ### The figures of the ring -/

@[simp] theorem ring_enqueue (n : TxNotice) (s : State) : ringOf (enqueue n s) = ringOf s := rfl
@[simp] theorem ring_setMode (m : GroupMode) (s : State) : ringOf (setMode m s) = ringOf s := rfl
@[simp] theorem ring_onBuildPart (f : BuildPart → BuildPart) (s : State) : ringOf (onBuildPart f s) = ringOf s := rfl
@[simp] theorem ring_onSpoilPart (f : SpoilPart → SpoilPart) (s : State) : ringOf (onSpoilPart f s) = ringOf s := rfl
@[simp] theorem ring_onGroutPart (f : GroutPart → GroutPart) (s : State) : ringOf (onGroutPart f s) = ringOf s := rfl
@[simp] theorem ring_raiseMismatch (s : State) : ringOf (raiseMismatch s) = ringOf s := rfl
@[simp] theorem ring_setSeq (q : SeqState) (s : State) : ringOf (setSeq q s) = ringOf s := rfl
@[simp] theorem ring_setEntryState (x : EntryState) (s : State) : ringOf (setEntryState x s) = ringOf s := rfl
@[simp] theorem ring_moveIndex (i : Nat) (s : State) : ringOf (moveIndex i s) = ringOf s := rfl
@[simp] theorem ring_holdsEval (s : State) : ringOf (holdsEval s) = ringOf s := rfl
@[simp] theorem ring_limitEval (s : State) : ringOf (limitEval s) = ringOf s := rfl
@[simp] theorem ring_setOutputs (s : State) : ringOf (setOutputs s) = ringOf s := rfl
@[simp] theorem ring_syncRecord (s : State) : ringOf (syncRecord s) = ringOf s := rfl
@[simp] theorem ring_supportEval (s : State) : ringOf (supportEval s) = ringOf s := rfl
@[simp] theorem ring_setLine (l : LineState) (s : State) : ringOf (setLine l s) = ringOf s := rfl

@[simp] theorem ring_tailEval (s : State) : ringOf (tailEval s) = ringOf s := by
  unfold tailEval; split
  · split <;> rfl
  · rfl

@[simp] theorem ring_injectionEval (s : State) : ringOf (injectionEval s) = ringOf s := by
  unfold injectionEval
  dsimp only
  repeat' split
  all_goals simp

@[simp] theorem ring_driveEval (s : State) : ringOf (driveEval s) = ringOf s := by unfold driveEval; split <;> rfl

@[simp] theorem ring_pressureBlindEval (s : State) : ringOf (pressureBlindEval s) = ringOf s := by
  unfold pressureBlindEval; dsimp only; split <;> rfl

@[simp] theorem ring_setScrew (x : ScrewState) (s : State) : ringOf (setScrew x s) = ringOf s := by
  unfold setScrew; split <;> rfl

@[simp] theorem ring_screwEval (s : State) : ringOf (screwEval s) = ringOf s := by
  unfold screwEval; split
  · simp
  · rfl

@[simp] theorem ring_setPace (p : Pace) (s : State) : ringOf (setPace p s) = ringOf s := by
  unfold setPace; split
  · rfl
  · dsimp only; split <;> rfl

@[simp] theorem ring_trainEval (s : State) : ringOf (trainEval s) = ringOf s := by
  unfold trainEval; split
  · rw [ring_setPace]; rfl
  · rfl

@[simp] theorem ring_advanceEval (s : State) : ringOf (advanceEval s) = ringOf s := by
  unfold advanceEval; split
  · split <;> rfl
  · split <;> rfl
  · rfl

@[simp] theorem ring_unitsEval (lim : Bool) (s : State) : ringOf (unitsEval lim s) = ringOf s := by
  unfold unitsEval; cases lim <;> simp

@[simp] theorem ring_retractRequest (s : State) : ringOf (retractRequest s) = ringOf s := by
  unfold retractRequest; split <;> rfl

@[simp] theorem ring_pressRequest (s : State) : ringOf (pressRequest s) = ringOf s := by
  unfold pressRequest; split <;> (try split) <;> rfl

@[simp] theorem ring_pressIfWithdrawn (s : State) : ringOf (pressIfWithdrawn s) = ringOf s := by
  unfold pressIfWithdrawn; split <;> simp

@[simp] theorem ring_suspendBuild (s : State) : ringOf (suspendBuild s) = ringOf s := by
  unfold suspendBuild; split
  · rw [ring_onBuildPart]; split
    · exact ring_pressIfWithdrawn s
    · exact ring_pressIfWithdrawn s
    · rfl
  · rfl

@[simp] theorem ring_judgeEmpty (s : State) : ringOf (judgeEmpty s) = ringOf s := by
  unfold judgeEmpty; split <;> simp

@[simp] theorem ring_standDown (s : State) : ringOf (standDown s) = ringOf s := rfl

@[simp] theorem ring_sequencePassed (s : State) : ringOf (sequencePassed s) = ringOf s := by
  unfold sequencePassed; split
  · split <;> rfl
  · rfl

@[simp] theorem ring_pressPassed (s : State) : ringOf (pressPassed s) = ringOf s := by
  unfold pressPassed; split
  · split <;> rfl
  · rfl

@[simp] theorem ring_catchUp (j : Nat) (s : State) : ringOf (catchUp j s) = ringOf s := by
  unfold catchUp; simp

@[simp] theorem ring_decideRetract (s : State) : ringOf (decideRetract s) = ringOf s := by
  unfold decideRetract; split <;> simp

@[simp] theorem ring_abortWithdrawal (s : State) : ringOf (abortWithdrawal s) = ringOf s := by
  unfold abortWithdrawal; exact ring_pressRequest s

@[simp] theorem ring_releaseEntry (s : State) : ringOf (releaseEntry s) = ringOf s := by
  unfold releaseEntry; dsimp only; split
  · split
    · simp
    · split <;> simp
  · simp

@[simp] theorem ring_placeEntry (s : State) : ringOf (placeEntry s) = ringOf s := by
  unfold placeEntry; dsimp only; split <;> simp

/-- Only a SET can close the ring. -/
theorem ring_applyAction {a : StepAction} (h : a ≠ .set) (s : State) : ringOf (applyAction a s) = ringOf s := by
  unfold applyAction; split
  · rfl
  · split <;> simp_all

theorem ring_takeStep {a : StepAction} (h : a ≠ .set) (r i : Nat) (s : State) :
    ringOf (takeStep a r i s) = ringOf s := by
  unfold takeStep judgeStep
  rw [ring_decideRetract]
  repeat' split
  all_goals simp [ring_applyAction h]

theorem ring_issueStep {a : StepAction} (h : a ≠ .set) (w : Working) (s : State) :
    ringOf (issueStep a w s) = ringOf s := by
  unfold issueStep; rw [ring_takeStep h, ring_enqueue]

/-! ### The thrust unit -/

/-- Everything a force does to the group: the trip, the end of PRESSING, or nothing (02 R28, R29). -/
theorem judgeForce_cases (v : Nat) (s : State) :
    (s.cfg.tripForce < v ∧ s.thrust.mode ≠ .tripped ∧ judgeForce v s = tripThrust s)
      ∨ (v ≤ s.cfg.tripForce ∧ s.thrust.mode = .pressing ∧ s.cfg.pressForce ≤ v
          ∧ judgeForce v s = decideRetract (setMode .hold s))
      ∨ ((s.cfg.tripForce < v → s.thrust.mode = .tripped)
          ∧ (v ≤ s.cfg.tripForce → s.thrust.mode = .pressing → v < s.cfg.pressForce) ∧ judgeForce v s = s) := by
  unfold judgeForce
  split
  · rename_i hv
    split
    · rename_i hm; exact .inr (.inr ⟨fun _ => hm, fun h => absurd hv (Nat.not_lt.mpr h), rfl⟩)
    · rename_i hm; exact .inl ⟨hv, hm, rfl⟩
  · rename_i hv
    split
    · rename_i hp
      obtain ⟨hm, hf⟩ : s.thrust.mode = .pressing ∧ s.cfg.pressForce ≤ v := by simpa using hp
      exact .inr (.inl ⟨Nat.not_lt.mp hv, hm, hf, rfl⟩)
    · rename_i hp
      exact .inr (.inr ⟨fun h => absurd h hv, fun _ hm => by simpa [hm] using hp, rfl⟩)

/-- Everything a force reading does at a LISTENING or READY station. -/
theorem takeForce_cases (v : Nat) (s : State) :
    (s.cfg.tripForce < v ∧ s.thrust.mode ≠ .tripped ∧ takeForce v s = tripThrust (recordForce v s))
      ∨ (v ≤ s.cfg.tripForce ∧ s.thrust.mode = .pressing ∧ s.cfg.pressForce ≤ v
          ∧ takeForce v s = decideRetract (setMode .hold (recordForce v s)))
      ∨ ((s.cfg.tripForce < v → s.thrust.mode = .tripped)
          ∧ (v ≤ s.cfg.tripForce → s.thrust.mode = .pressing → v < s.cfg.pressForce)
          ∧ takeForce v s = recordForce v s) :=
  judgeForce_cases v (recordForce v s)

/-! ### The erector unit -/

@[simp] theorem erector_retractRequest (s : State) : (retractRequest s).erector = s.erector := by
  unfold retractRequest; split <;> rfl

@[simp] theorem erector_pressRequest (s : State) : (pressRequest s).erector = s.erector := by
  unfold pressRequest; split <;> (try split) <;> rfl

@[simp] theorem erector_pressIfWithdrawn (s : State) : (pressIfWithdrawn s).erector = s.erector := by
  unfold pressIfWithdrawn; split <;> simp

@[simp] theorem erector_suspendBuild (s : State) : (suspendBuild s).erector = s.erector := by
  unfold suspendBuild; split
  · simp only [onBuildPart]
    split
    · exact erector_pressIfWithdrawn s
    · exact erector_pressIfWithdrawn s
    · rfl
  · rfl

@[simp] theorem erector_judgeEmpty (s : State) : (judgeEmpty s).erector = s.erector := by
  unfold judgeEmpty; split <;> simp

@[simp] theorem erector_decideRetract (s : State) : (decideRetract s).erector = s.erector := by
  unfold decideRetract; split <;> simp

@[simp] theorem erector_abortWithdrawal (s : State) : (abortWithdrawal s).erector = s.erector := by
  unfold abortWithdrawal; exact erector_pressRequest s

@[simp] theorem erector_releaseEntry (s : State) : (releaseEntry s).erector = s.erector := by
  unfold releaseEntry; dsimp only; split
  · split
    · simp
    · split <;> simp
  · simp

@[simp] theorem erector_placeEntry (s : State) : (placeEntry s).erector = s.erector := by
  unfold placeEntry; dsimp only; split <;> simp

@[simp] theorem erector_tailEval (s : State) : (tailEval s).erector = s.erector := by
  unfold tailEval; split
  · split <;> rfl
  · rfl

@[simp] theorem erector_injectionEval (s : State) : (injectionEval s).erector = s.erector := by
  unfold injectionEval; dsimp only
  repeat' split
  all_goals simp

@[simp] theorem erector_driveEval (s : State) : (driveEval s).erector = s.erector := by
  unfold driveEval; split <;> rfl

@[simp] theorem erector_screwEval (s : State) : (screwEval s).erector = s.erector := by
  unfold screwEval; split
  · unfold setScrew pressureBlindEval; dsimp only [supportEval]
    repeat' split
    all_goals rfl
  · rfl

@[simp] theorem erector_trainEval (s : State) : (trainEval s).erector = s.erector := by
  unfold trainEval setPace; dsimp only
  repeat' split
  all_goals rfl

@[simp] theorem erector_advanceEval (s : State) : (advanceEval s).erector = s.erector := by
  unfold advanceEval; split
  · split <;> rfl
  · split <;> rfl
  · rfl

@[simp] theorem erector_unitsEval (lim : Bool) (s : State) : (unitsEval lim s).erector = s.erector := by
  unfold unitsEval; cases lim <;> simp

/-- A STEP changes the erector unit only by putting its sequence in STANDBY when another way has set its entry. -/
theorem seq_pressPassed (s : State) :
    (pressPassed s).erector.seq = s.erector.seq ∨ (pressPassed s).erector.seq = .standby := by
  unfold pressPassed; split
  · split
    · exact .inr rfl
    · exact .inl rfl
  · exact .inl rfl

theorem seq_catchUp (j : Nat) (s : State) :
    (catchUp j s).erector.seq = s.erector.seq ∨ (catchUp j s).erector.seq = .standby := by
  unfold catchUp
  simpa using seq_pressPassed (moveIndex j s)

theorem erector_applyAction {a : StepAction} (h : a ≠ .set) (s : State) : (applyAction a s).erector = s.erector := by
  unfold applyAction; split
  · rfl
  · split <;> simp_all

theorem seq_issueStep {a : StepAction} (h : a ≠ .set) (w : Working) (s : State) :
    (issueStep a w s).erector.seq = s.erector.seq ∨ (issueStep a w s).erector.seq = .standby := by
  unfold issueStep takeStep judgeStep
  rw [erector_decideRetract]
  repeat' split
  all_goals simp only [erector_applyAction h, raiseMismatch_erector, enqueue_erector, true_or]
  simpa using seq_catchUp w.index (enqueue (.step a w.ring w.index) s)

/-- A sequence that does not wait to send SET does not come to by itself, and leaves the figures of the ring alone. -/
theorem seqStep_keeps {s : State} (h : s.erector.seq ≠ .awaitingPress) :
    (seqStep s).erector.seq ≠ .awaitingPress ∧ ringOf (seqStep s) = ringOf s := by
  unfold seqStep
  split
  · unfold leaveStandby
    repeat' split
    all_goals first | exact ⟨h, rfl⟩ | exact ⟨by simp, rfl⟩
  · exact ⟨by simp, by simp⟩
  · split
    · exact ⟨by simp, by simp⟩
    · split
      · unfold placingTest
        split
        · exact ⟨h, rfl⟩
        · split
          · refine ⟨?_, by simp [ring_issueStep]⟩
            rcases seq_issueStep (a := .claim) (by decide) _ (setSeq .placing s) with e | e <;> rw [e] <;> simp
          · refine ⟨by simp, ?_⟩
            rw [ring_suspendBuild]; rfl
      · exact ⟨h, rfl⟩
  · split
    · refine ⟨?_, by simp [ring_issueStep]⟩
      rcases seq_issueStep (a := .release) (by decide) _ (setSeq .standby s) with e | e <;> rw [e] <;> simp
    · split
      · exact ⟨by simp, by simp⟩
      · split
        · refine ⟨?_, by simp [ring_issueStep]⟩
          rcases seq_issueStep (a := .release) (by decide) _ (setSeq .standby s) with e | e <;> rw [e] <;> simp
        · split
          · exact ⟨h, rfl⟩
          · refine ⟨?_, by simp [ring_issueStep]⟩
            rcases seq_issueStep (a := .release) (by decide) _ (setSeq .awaitingClear s) with e | e <;> rw [e] <;> simp
  · contradiction

theorem seqSteps_keeps (n : Nat) {s : State} (h : s.erector.seq ≠ .awaitingPress) :
    (seqSteps n s).erector.seq ≠ .awaitingPress ∧ ringOf (seqSteps n s) = ringOf s := by
  induction n generalizing s with
  | zero => exact ⟨h, rfl⟩
  | succ n ih =>
    unfold seqSteps; split
    · exact seqStep_keeps h
    · obtain ⟨h1, h2⟩ := seqStep_keeps h
      obtain ⟨h3, h4⟩ := ih h1
      exact ⟨h3, h4.trans h2⟩

/-- The evaluation of the units leaves the figures of the ring alone, unless the erector waits to send SET. -/
theorem ring_settle (lim : Bool) {s : State} (h : s.erector.seq ≠ .awaitingPress) :
    ringOf (settle lim s) = ringOf s := by
  unfold settle; split
  · simp only [ring_setOutputs, ring_syncRecord, ring_injectionEval, ring_unitsEval]
    unfold erectorEval; split
    · rw [(seqSteps_keeps 8 (by simpa using h)).2, ring_unitsEval]
    · rw [ring_unitsEval]
  · rfl

/-! ### A station without the ERECTOR role -/

@[simp] theorem plan_setMode (m : GroupMode) (s : State) : planOf (setMode m s) = planOf s := rfl

@[simp] theorem plan_unitsEval (lim : Bool) (s : State) : planOf (unitsEval lim s) = planOf s := by
  have h1 : ∀ s : State, planOf (driveEval s) = planOf s := by intro s; unfold driveEval; split <;> rfl
  have h2 : ∀ s : State, planOf (screwEval s) = planOf s := by
    intro s; unfold screwEval; split
    · unfold setScrew pressureBlindEval; dsimp only [supportEval]
      repeat' split
      all_goals rfl
    · rfl
  have h3 : ∀ s : State, planOf (trainEval s) = planOf s := by
    intro s; unfold trainEval setPace; dsimp only
    repeat' split
    all_goals rfl
  have h4 : ∀ s : State, planOf (advanceEval s) = planOf s := by
    intro s; unfold advanceEval
    repeat' split
    all_goals rfl
  unfold unitsEval
  cases lim
  · simp only [Bool.false_eq_true, if_false]; rw [h4]; exact (h3 _).trans ((h2 _).trans (h1 _))
  · simp only [if_true]; rw [h4]; exact (h3 _).trans ((h2 _).trans (h1 _))

@[simp] theorem plan_injectionEval (s : State) : planOf (injectionEval s) = planOf s := by
  unfold injectionEval tailEval; dsimp only
  repeat' split
  all_goals rfl

@[simp] theorem roles_unitsEval (lim : Bool) (s : State) : (unitsEval lim s).cfg = s.cfg :=
  congrArg Base.cfg (base_unitsEval lim s)

theorem erectorEval_absent {s : State} (h : s.cfg.roles.erector = false) : erectorEval s = s := by
  simp [erectorEval, h]


/-- What drive, screw and train unit read besides their own state. -/
structure SameSurroundings (s t : State) : Prop where
  life : s.life = t.life
  own : s.own = t.own
  cfg : s.cfg = t.cfg
  view : s.view = t.view
  inputs : s.inputs = t.inputs
  build : s.build.state = t.build.state
  driveState : s.drive.state = t.drive.state

theorem SameSurroundings.trans {s t u : State} (h : SameSurroundings s t) (k : SameSurroundings t u) :
    SameSurroundings s u :=
  ⟨h.1.trans k.1, h.2.trans k.2, h.3.trans k.3, h.4.trans k.4, h.5.trans k.5, h.6.trans k.6, h.7.trans k.7⟩

theorem SameSurroundings.symm {s t : State} (h : SameSurroundings s t) : SameSurroundings t s :=
  ⟨h.1.symm, h.2.symm, h.3.symm, h.4.symm, h.5.symm, h.6.symm, h.7.symm⟩

theorem startConditions_congr {s t : State} (h : SameSurroundings s t) : startConditions s = startConditions t := by
  simp only [startConditions, peerBuilding, spoilStation, freshPeers, freshBody, entryOf, tripInView, h.own, h.cfg, h.view,
    h.build]

theorem controlPressure_congr {s t : State} (h : SameSurroundings s t) : controlPressure s = controlPressure t := by
  have hr : crownReading s = crownReading t := by
    funext a; simp only [crownReading, freshBody, entryOf, h.own, h.view, h.inputs]
  simp only [controlPressure, crownSet, hr, h.cfg]

/-- The screw state that is chosen depends on the surroundings, the target and PRESSURE BLIND alone. -/
theorem screwChoice_congr {s t : State} (h : SameSurroundings s t) (ht : s.screw.target = t.screw.target)
    (hp : s.train.reasons.pressureBlind = t.train.reasons.pressureBlind) : screwChoice s = screwChoice t := by
  simp only [screwChoice, peerBuilding, driveInView, freshPeers, freshBody, entryOf, tripInView, h.life, h.own, h.view,
    h.build, h.driveState, ht, hp]
  rfl

theorem pressureBlindEval_surroundings (s : State) : SameSurroundings (pressureBlindEval s) s := by
  unfold pressureBlindEval; dsimp only
  split <;> exact ⟨rfl, rfl, rfl, rfl, rfl, rfl, rfl⟩

theorem screwEval_surroundings (s : State) : SameSurroundings (screwEval s) s := by
  unfold screwEval setScrew pressureBlindEval; dsimp only [supportEval]
  repeat' split
  all_goals exact ⟨rfl, rfl, rfl, rfl, rfl, rfl, rfl⟩

theorem trainEval_surroundings (s : State) : SameSurroundings (trainEval s) s := by
  unfold trainEval setPace; dsimp only
  repeat' split
  all_goals exact ⟨rfl, rfl, rfl, rfl, rfl, rfl, rfl⟩

theorem advanceEval_surroundings (s : State) : SameSurroundings (advanceEval s) s := by
  unfold advanceEval
  repeat' split
  all_goals exact ⟨rfl, rfl, rfl, rfl, rfl, rfl, rfl⟩

/-- After the drive's evaluation the other units leave the surroundings alone. -/
theorem unitsEval_surroundings (lim : Bool) (s : State) : SameSurroundings (unitsEval lim s) (driveEval s) := by
  have h := (trainEval_surroundings (screwEval (driveEval s))).trans (screwEval_surroundings (driveEval s))
  have k : ∀ x, SameSurroundings (holdsEval x) x := fun _ => ⟨rfl, rfl, rfl, rfl, rfl, rfl, rfl⟩
  have l : ∀ x, SameSurroundings (limitEval x) x := fun _ => ⟨rfl, rfl, rfl, rfl, rfl, rfl, rfl⟩
  unfold unitsEval
  cases lim
  · exact (advanceEval_surroundings _).trans ((k _).trans h)
  · exact (advanceEval_surroundings _).trans ((k _).trans ((l _).trans h))

@[simp] theorem pressureBlindEval_screw (s : State) : (pressureBlindEval s).screw = s.screw := by
  unfold pressureBlindEval; dsimp only; split <;> rfl

@[simp] theorem pressureBlindEval_pressureBlind (s : State) :
    (pressureBlindEval s).train.reasons.pressureBlind = (controlPressure s).isNone := by
  unfold pressureBlindEval; dsimp only; split <;> rfl

/-- The screw unit after its evaluation depends on the screw unit and the surroundings alone. -/
theorem screwEval_congr {s t : State} (h : SameSurroundings s t) (hs : s.screw = t.screw) :
    (screwEval s).screw = (screwEval t).screw := by
  have hp := controlPressure_congr h
  have hc : screwChoice (pressureBlindEval s) = screwChoice (pressureBlindEval t) :=
    screwChoice_congr ((pressureBlindEval_surroundings s).trans (h.trans (pressureBlindEval_surroundings t).symm))
      (by simp [hs]) (by simp [hp])
  unfold screwEval
  rw [h.cfg]
  split
  · have hpb : controlPressure (setScrew (screwChoice (pressureBlindEval s)) (pressureBlindEval s))
        = controlPressure (setScrew (screwChoice (pressureBlindEval t)) (pressureBlindEval t)) := by
      apply controlPressure_congr
      have e : ∀ (x : ScrewState) (s : State), SameSurroundings (setScrew x s) s := by
        intro x s; unfold setScrew; split <;> exact ⟨rfl, rfl, rfl, rfl, rfl, rfl, rfl⟩
      exact ((e _ _).trans (pressureBlindEval_surroundings s)).trans
        (h.trans ((e _ _).trans (pressureBlindEval_surroundings t)).symm)
    have hss : (setScrew (screwChoice (pressureBlindEval s)) (pressureBlindEval s)).screw
        = (setScrew (screwChoice (pressureBlindEval t)) (pressureBlindEval t)).screw := by
      unfold setScrew
      simp only [hc, pressureBlindEval_screw, hs]
      split <;> simp [hs]
    simp only [supportEval, hpb, hss]
  · exact hs

/-- The train unit after its evaluation depends on the train unit, the target, the conflict and the roles alone. -/
theorem trainEval_congr {s t : State} (hv : s.view = t.view) (hc : s.cfg = t.cfg) (hq : s.train = t.train)
    (hs : s.screw.target = t.screw.target) : (trainEval s).train = (trainEval t).train := by
  have e : ∀ (p : Pace) (s : State), (setPace p s).train = { s.train with pace := p } := by
    intro p s; unfold setPace; dsimp only
    split
    · next h => rw [← h]
    · split <;> rfl
  unfold trainEval
  rw [hc]
  split
  · simp only [e, hv, hq, hs]
  · exact hq

@[simp] theorem trainEval_screw (s : State) : (trainEval s).screw = s.screw := by
  unfold trainEval setPace; dsimp only
  repeat' split
  all_goals rfl

@[simp] theorem advanceEval_screw (s : State) : (advanceEval s).screw = s.screw := by
  unfold advanceEval; repeat' split
  all_goals rfl

@[simp] theorem advanceEval_train (s : State) : (advanceEval s).train = s.train := by
  unfold advanceEval; repeat' split
  all_goals rfl

@[simp] theorem advanceEval_drive (s : State) : (advanceEval s).drive = s.drive := by
  unfold advanceEval; repeat' split
  all_goals rfl

@[simp] theorem trainEval_drive (s : State) : (trainEval s).drive = s.drive := by
  unfold trainEval setPace; dsimp only
  repeat' split
  all_goals rfl

@[simp] theorem screwEval_drive (s : State) : (screwEval s).drive = s.drive := by
  unfold screwEval setScrew pressureBlindEval; dsimp only [supportEval]
  repeat' split
  all_goals rfl

@[simp] theorem unitsEval_drive (lim : Bool) (s : State) : (unitsEval lim s).drive = (driveEval s).drive := by
  unfold unitsEval; cases lim <;> simp

@[simp] theorem unitsEval_screw (lim : Bool) (s : State) : (unitsEval lim s).screw = (screwEval (driveEval s)).screw := by
  unfold unitsEval; cases lim <;> simp

@[simp] theorem unitsEval_train (lim : Bool) (s : State) :
    (unitsEval lim s).train = (trainEval (screwEval (driveEval s))).train := by
  unfold unitsEval; cases lim <;> simp

/-- The train unit after the screw's evaluation differs in PRESSURE BLIND alone. -/
theorem screwEval_train {s : State} (h : s.cfg.roles.screw = true → s.train.reasons.pressureBlind = (controlPressure s).isNone) :
    (screwEval s).train = s.train := by
  unfold screwEval
  split
  · next hr =>
    have : (pressureBlindEval s).train = s.train := by
      unfold pressureBlindEval; dsimp only
      rw [← h hr]
      split <;> rfl
    unfold setScrew; dsimp only [supportEval]
    split
    · exact this
    · exact this
  · rfl

theorem pressureBlind_of_fixed {e : State} (h : screwEval e = e) (hr : e.cfg.roles.screw = true) :
    e.train.reasons.pressureBlind = (controlPressure e).isNone := by
  have : (screwEval e).train.reasons.pressureBlind = (controlPressure e).isNone := by
    unfold screwEval setScrew
    rw [if_pos hr]
    dsimp only [supportEval]
    split <;> exact pressureBlindEval_pressureBlind e
  rwa [h] at this

/-- A second evaluation of the units changes nothing of drive, screw and train unit that the first left alone. -/
theorem units_again {lim : Bool} {e : State} (hd : driveEval e = e) :
    (unitsEval lim (unitsEval lim e)).drive = e.drive
      ∧ (screwEval e = e →
          (unitsEval lim (unitsEval lim e)).screw = e.screw
            ∧ (trainEval e = e → (unitsEval lim (unitsEval lim e)).train = e.train)) := by
  have hu : SameSurroundings (unitsEval lim e) e := by
    have h := unitsEval_surroundings lim e
    rwa [hd] at h
  have hdu : driveEval (unitsEval lim e) = unitsEval lim e := by
    unfold driveEval at hd ⊢
    rw [startConditions_congr hu, hu.driveState]
    split
    · next hc =>
      exfalso
      rw [if_pos hc] at hd
      have : (stopDrive e).drive.state = e.drive.state := by rw [hd]
      simp only [stopDrive_drive_state] at this
      rw [← this] at hc
      simp at hc
    · rfl
  refine ⟨by rw [unitsEval_drive, hdu, unitsEval_drive, hd], fun hs => ?_⟩
  have hsu : (unitsEval lim e).screw = e.screw := by rw [unitsEval_screw, hd, hs]
  have h1 : (screwEval (unitsEval lim e)).screw = e.screw := by rw [screwEval_congr hu hsu, hs]
  refine ⟨by rw [unitsEval_screw, hdu, h1], fun ht => ?_⟩
  have htu : (unitsEval lim e).train = e.train := by rw [unitsEval_train, hd, hs, ht]
  have h2 : (screwEval (unitsEval lim e)).train = e.train := by
    rw [screwEval_train, htu]
    intro hr
    rw [htu, controlPressure_congr hu]
    exact pressureBlind_of_fixed hs (by rwa [hu.cfg] at hr)
  rw [unitsEval_train, hdu]
  have h3 := screwEval_surroundings (unitsEval lim e)
  rw [trainEval_congr (h3.view.trans hu.view) (h3.cfg.trans hu.cfg) h2 (by rw [h1]), ht]

@[simp] theorem injectionEval_drive (s : State) : (injectionEval s).drive = s.drive := by
  unfold injectionEval tailEval; dsimp only
  repeat' split
  all_goals rfl

@[simp] theorem injectionEval_screw (s : State) : (injectionEval s).screw = s.screw := by
  unfold injectionEval tailEval; dsimp only
  repeat' split
  all_goals rfl

@[simp] theorem injectionEval_train (s : State) : (injectionEval s).train = s.train := by
  unfold injectionEval tailEval; dsimp only
  repeat' split
  all_goals rfl

/-- What the end of an event leaves alone, once for all statements. -/
theorem settle_frame (lim : Bool) (e : State) : FrameOf e (settle lim e) := by
  refine ⟨base_settle lim e, fun h => ring_settle lim h, fun he => ?_⟩
  unfold settle
  split
  · rw [erectorEval_absent (s := unitsEval lim e) (by simpa using he)]
    refine ⟨?_, ?_, fun hd => ?_⟩
    · have : ∀ s : State, planOf (setOutputs (syncRecord s)) = planOf s := fun _ => rfl
      simp [this]
    · simp
    · obtain ⟨h1, h2⟩ := units_again (lim := lim) hd
      refine ⟨by simpa using h1, fun hs => ?_⟩
      obtain ⟨h3, h4⟩ := h2 hs
      exact ⟨by simpa using h3, fun ht => by simpa using h4 ht⟩
  · exact ⟨rfl, rfl, fun _ => ⟨rfl, fun _ => ⟨rfl, fun _ => rfl⟩⟩⟩
end Sys2Proof.Machine
end

