-- ==== Sys2Proof/Tests/Slice0.lean ====
section
/-! SUPPORT. Tests/Slice0.lean: the WellFormed smoke tests, the manual's worked cases, one or two small checks for each
event, and for every statement that has hypotheses a concrete station and operands that meet them. Expected values come
from the worked cases and tables of spec/, or by hand from its rules. -/

namespace Sys2Proof.Tests

set_option linter.unusedVariables false

open Sys2Proof Sys2Proof.Machine

/-! ### Stations -/

/-- The example machine's station 0, with a drive, a line and the screw (06, 08 and 09, worked cases). -/
def cfg : ConfigValues :=
  { n := 8, roles := { screw := true, erector := false, drive := true, line := true }, af := 3505, aa := 288, w := 14000,
    smax := 20000, rho := 1950, beltScale := 10, addScale := 5, vrev := 400, nmax := 220, vs := 1500, pumpMax := 40,
    tn := 50, k := 3, tripForce := 8000, pressForce := 1500 }

/-- The STATE body of a peer on ring 412. -/
def body : StateBody :=
  { roles := Roles.none, ready := true, ring := 412, build := .ringOpen, index := 0, mode := .hold, force := 1900,
    advance := 6000, drive := .running, speed := 120, torque := 800, line := .armed, volume := 585000,
    chamber := some 266, pace := .free, ownThrust := false, ownStall := false, tripInView := false, blind := false,
    alarms := 0, holds := 0, page := 0, detail := List.replicate 9 0 }

def peer (b : StateBody) : PeerEntry := { held := some { body := b, age := 0, fresh := true }, pace := some b.pace }

/-- A READY station on ring 412 with seven FRESH peers. -/
def st : State :=
  { State.reset with
    life := .ready, own := 0, cfg := cfg
    clock := { now := 5000, noticeDue := some 5050, controlDue := some 6000, driveDue := some 5100 }
    inputs := { Inputs.initial with chamber := some 258 }
    view :=
      { View.reset with
        peers := PeerEntry.absent :: List.replicate 6 (peer body) ++ [peer { body with chamber := some 262 }] }
    records :=
      { State.reset.records with ring := 412, current := Record.fresh cfg.roles 412 .close } }

def head : CmdHead := { source := .cab, toAll := false, tag := 7 }

/-- A frame on the line, for the rows that need an offer in progress. -/
def offered : Frame := { cls := 2, rank := 0, source := 0, dest := 8, kind := 0, body := [] }

def piece : Piece := { piece := 3, key := true, arrival := 255 }

def fullCar : Car :=
  { capacity := 1000, filled := 1000, additive := 0, state := .full, flagAdditive := false, flagOver := false,
    flagShort := false }

/-- A plan of two entries: type 3 over sectors 0 and 1, and the KEY, type 5, over sector 1. -/
def planBytes : List (Byte × Byte) := [(3, 3), (69, 2)]

def planEntryAs (x : EntryState) : PlanEntry := { piece := 3, key := false, cover := [0, 1], state := x }

def keyEntry : PlanEntry := { piece := 5, key := true, cover := [1], state := .pending }

def planAs (x : EntryState) : List PlanEntry := [planEntryAs x, keyEntry]

def plan : List PlanEntry := planAs .pending

/-- A configuration memory with every field in range, N of 7 and all roles but ERECTOR; its bytes 0 to 30 sum to 1,987, of
which the low byte inverted is 60. -/
def goodMemory : List Byte :=
  [58, 7, 176, 13, 177, 1, 32, 54, 176, 78, 32, 7, 158, 10, 0, 5, 1, 144, 0, 220, 5, 220, 40, 50, 3, 31, 64, 5, 220, 0, 0,
   60]

/-- The station an event leaves. -/
def after (i : Instr) (s : State) : State := match exec i s with | .next t => t | _ => s

/-- A station whose units have just been evaluated, with an event waiting. -/
def busy : State := { settle true st with pending := [.beltPulse] }

def workAt0 : Working := { ring := 412, index := 0, piece := 3, key := false, cover := [0, 1] }

/-- An erector station that places the first of two pieces. -/
def placingStation : State :=
  { busy with
    cfg.roles.erector := true, build.state := .building, build.entries := planAs .claimed, thrust.mode := .clear
    erector.seq := .placing, erector.working := some workAt0
    erector.queue := [{ piece := 3, key := false, arrival := 0 }]
    view.peers := PeerEntry.absent :: List.replicate 7 (peer { body with mode := .clear }) }

theorem placingStation_atWork : atWork placingStation workAt0 := by
  unfold atWork
  decide

/-- A group in ADVANCE with no hold reason. -/
def advancing : State :=
  { st with
    drive.state := .running, train.pace := .free, thrust.holds.stopped := false, thrust.mode := .advance
    thrust.mark := some 10 }

/-! ### WellFormed: each check refuses an ill-formed term -/

theorem test_wf_operands : (Instr.startAdvance head (List.replicate 31 0)).wellFormed = false := by decide
theorem test_wf_clear_thrust : (Instr.clearTripThrust head [1]).wellFormed = false := by decide
theorem test_wf_clear_drive : (Instr.clearTripDrive head [0]).wellFormed = false := by decide
theorem test_wf_clear_cab : (Instr.clearTripCabStop head [1]).wellFormed = false := by decide
theorem test_wf_state_source : (Instr.stateArrival 8 body).wellFormed = false := by decide
theorem test_wf_state_index : (Instr.stateArrival 7 { body with index := 9 }).wellFormed = false := by decide
theorem test_wf_state_detail : (Instr.stateArrival 7 { body with detail := [] }).wellFormed = false := by decide
theorem test_wf_state_chamber : (Instr.stateArrival 7 { body with chamber := some 65535 }).wellFormed = false := by decide
theorem test_wf_trip_source : (Instr.tripArrival 9 .stall).wellFormed = false := by decide
theorem test_wf_pace_source : (Instr.paceArrival 14 .hold).wellFormed = false := by decide
theorem test_wf_step_ring : (Instr.stepArrival 7 .claim 65536 0).wellFormed = false := by decide
theorem test_wf_step_index : (Instr.stepArrival 7 .claim 412 256).wellFormed = false := by decide
theorem test_wf_stroke : (Instr.strokeReading (some 32768)).wellFormed = false := by decide
theorem test_wf_force : (Instr.forceReading (some 20001)).wellFormed = false := by decide
theorem test_wf_speed : (Instr.measuredSpeedReading (some 601)).wellFormed = false := by decide
theorem test_wf_torque : (Instr.torqueReading (some 2001)).wellFormed = false := by decide
theorem test_wf_chamber : (Instr.chamberPressureReading (some 1001)).wellFormed = false := by decide
theorem test_wf_line : (Instr.linePressureReading (some 1001)).wellFormed = false := by decide
theorem test_wf_memory : (Instr.configurationRead 0 []).wellFormed = false := by decide
theorem test_wf_number : (Instr.commandNotInCatalogue head 30 []).wellFormed = false := by decide
theorem test_wf_state : (Instr.stateArrival 7 body).wellFormed = true := by decide

/-! ### The manual's worked cases -/

/-- 01 R7, worked case: 262, 258 and 266 give 262; 262 and 266 give 264; 261 and 264 give 263. -/
theorem test_control_pressure :
    controlPressure st = some 262 ∧ controlPressure { st with inputs.chamber := none } = some 264
      ∧ meanOf [261, 264] = some 263 := by decide

/-- 01 R9, worked case: the two torque means, 791 and 789. -/
theorem test_torque_mean :
    meanOf [820, 760, 780, 800, 790, 810, 770, 800] = some 791
      ∧ meanOf [820, 760, 780, 800, 790, 770, 800] = some 789 := by decide

/-- 02 R30, worked case: a trip force of 8,000 re-arms at 7,200 and not at 7,201. -/
theorem test_rearm :
    (after (.clearTripThrust head [0]) { st with thrust.mode := .tripped, inputs.force := 7200 }).thrust.mode = .hold
      ∧ (after (.clearTripThrust head [0]) { st with thrust.mode := .tripped, inputs.force := 7201 }).thrust.mode
          = .tripped := by decide

/-- 02 R36, worked case: v_max 60 and p_max 300 at 2.50, 1.20 and 0.85 rpm. -/
theorem test_limit :
    speedLimit { st with thrust.vmax := 60, inputs.speed := 250, train.pace := .free } = 60
      ∧ speedLimit { st with thrust.vmax := 60, inputs.speed := 120, train.pace := .slow } = 18
      ∧ speedLimit { st with thrust.vmax := 60, inputs.speed := 85, train.pace := .slow } = 12 := by decide

/-- 03 section 3.6: P_c 262 and m 1,200 need 11,020 kN, P_c 265 needs 11,146 kN. -/
theorem test_required_force : requiredForce st 262 = 11020 ∧ requiredForce st 265 = 11146 := by decide

/-- 06 R97, R98, worked case, seconds 1, 2, 14 and 15. -/
theorem test_screw_command :
    slewed 220 0 (rawCommand { st with screw.gain := 20 } 0 255 250) = 5
      ∧ slewed 220 5 (rawCommand { st with screw.gain := 20 } 4 258 250) = 10
      ∧ slewed 220 65 (rawCommand { st with screw.gain := 20 } 8 262 250) = 66
      ∧ slewed 220 66 (rawCommand { st with screw.gain := 20 } 8 248 250) = 61 := by decide

/-- 08 R127, worked case: an advance of 8 with four lines ready is 26 strokes, with two 53, with three 35. -/
theorem test_pump_rate :
    let lines (k : Nat) : State :=
      { st with view.peers := PeerEntry.absent :: List.replicate k (peer body), grout.line := .armed }
    computedRate (lines 3) 8 = 26 ∧ computedRate (lines 1) 8 = 53 ∧ computedRate (lines 2) 8 = 35 := by decide

/-- 09 R141, worked case: mid-ring, just below V_min, and a support mass above the belt mass. -/
theorem test_spoil_account :
    removed st 7000 400 = 3384615 ∧ balanceRatio st 3505000 3384615 = some 965
      ∧ balanceRatio st 3501495 3379487 = none ∧ removed st 200 400 = 0
      ∧ balanceRatio st 3505000 15384615 = some 4095 := by decide

/-- 10 R152, worked case: ranks after station 3's STATE and after station 4's. -/
theorem test_rank :
    (frameOf { st with own := 6, bus.lastSource := some 3 } .state).rank = 2
      ∧ (frameOf { st with own := 0, bus.lastSource := some 4 } .state).rank = 3
      ∧ (frameOf { st with own := 0, bus.lastSource := some 6 } (.pace .hold)).rank = 0 := by decide

/-! ### Events -/

/-- 02 R31: START ADVANCE removes STOPPED, and the group stays in HOLD while CUTTERHEAD holds it. -/
theorem test_start_advance :
    (after (.startAdvance head []) st).thrust.holds.stopped = false
      ∧ (after (.startAdvance head []) st).thrust.mode = .hold := by decide

/-- 02 R37: 121 and 5 are clamped to 120 and 10, and v_max is named. -/
theorem test_set_advance_limits :
    (after (.setAdvanceLimits head [121, 0, 5]) st).thrust.vmax = 120
      ∧ (after (.setAdvanceLimits head [121, 0, 5]) st).thrust.pmax = 10
      ∧ (after (.setAdvanceLimits head [121, 0, 5]) st).bus.queue
          = [{ notice := .reply .cab 3 7 (.clamped 0) [], offering := false }] := by decide

/-- 02 R29, 01 R15: 8,001 kN trips, 8,000 kN does not. -/
theorem test_force_trip :
    (after (.forceReading (some 8001)) st).view.trips = [(0, .thrust)]
      ∧ (after (.forceReading (some 8000)) st).thrust.mode = .hold := by decide

/-- 02 R22: a reading above the mark adds the difference, one at the mark adds nothing. -/
theorem test_stroke :
    let s : State :=
      { st with
        drive.state := .running, thrust.mode := .advance, thrust.mark := some 100, thrust.holds.stopped := false
        screw.target := some 250, train.cars := [{ fullCar with capacity := 40000, filled := 0, state := .filling }]
        train.holdLevel := 0, train.slowLevel := 0 }
    (after (.strokeReading (some 130)) s).thrust.advance = 30 ∧ (after (.strokeReading (some 130)) s).thrust.mark = some 130
      ∧ (after (.strokeReading (some 100)) s).thrust.advance = 0 := by decide

/-- 01 R4: an age passes k at its fourth expiry and goes STALE. -/
theorem test_aging :
    freshPeers (after .noticePeriodExpiry
      (after .noticePeriodExpiry (after .noticePeriodExpiry { st with life := .listening }))) ≠ []
      ∧ freshPeers (ageView
          { st with view.peers := [PeerEntry.absent, { held := some { body := body, age := 3, fresh := true }, pace := none }] })
          = [] := by decide

/-- 03 R41: two entries that cover sectors of the ring are taken; a KEY that is not the last entry is named. -/
theorem test_load_plan :
    (after (.loadPlan head (planOperands 412 planBytes)) st).build.entries = plan
      ∧ (after (.loadPlan head (planOperands 412 [(69, 2), (69, 2)])) st).bus.queue
          = [{ notice := .reply .cab 6 7 (.outOfRange 2) [], offering := false }] := by decide

/-- 03 R45, R52: a BEGIN BUILD taken with the margin met withdraws a covered group. -/
theorem test_begin_build :
    (after (.beginBuild head [1, 156])
      { st with build.entries := plan, build.planRing := 412, thrust.advance := 14000 }).thrust.mode = .retracting := by
  decide

/-- 03 R59: PLACED presses a covered withdrawn group; 03 R60, R61: the SET of the KEY closes ring 412. -/
theorem test_steps :
    (after (.stepArrival 7 .placed 412 0)
      { st with build.state := .building, build.entries := planAs .claimed, thrust.mode := .clear }).thrust.mode = .pressing
      ∧ (after (.stepArrival 7 .set 412 1)
          { st with build.state := .building, build.entries := plan, build.index := 1 }).records.ring = 413 := by decide

/-- 03 R62: a READY station adopts ring 414 and stores its record. -/
theorem test_adoption :
    (after (.stateArrival 7 { body with ring := 414 }) st).records.ring = 414
      ∧ (after (.stateArrival 7 { body with ring := 414 }) st).records.history.length = 1 := by decide

/-- 04 R66: the eighth piece is taken, the ninth raises FEEDER OVERFULL. -/
theorem test_piece_in :
    (after (.pieceInStrobe 3 true)
      { st with cfg.roles.erector := true, erector.queue := List.replicate 7 piece }).erector.queue.length = 8
      ∧ (after (.pieceInStrobe 3 true)
          { st with cfg.roles.erector := true, erector.queue := List.replicate 8 piece }).erector.feederOverfull = true := by
  decide

/-- 05 R82, R83: a start from standstill takes command 0, and one interval at ramp 100 moves it by 10. -/
theorem test_cutterhead :
    (after (.startCutterhead head [0, 200, 0]) st).drive.state = .starting
      ∧ (after .driveInterval (after (.startCutterhead head [0, 200, 0]) st)).drive.command = 10 := by decide

/-- 05 R87, R88: a torque at the stall level starts the timer, whose expiry stalls the drive. -/
theorem test_stall :
    (after (.torqueReading (some 1500)) { st with drive.state := .running }).drive.stallStart = some 5000
      ∧ (after .stallTimerExpiry
          (after (.torqueReading (some 1500)) { st with drive.state := .running })).drive.state = .stalled := by decide

/-- 06 R104, R105: SET FACE PRESSURE removes NO TARGET. -/
theorem test_face_pressure :
    (after (.setFacePressure head [0, 250, 20, 20]) st).train.reasons.noTarget = false
      ∧ (after (.setFacePressure head [0, 250, 20, 20]) st).screw.target = some 250 := by decide

/-- 07 R109, worked figures: three cars of 20,000 kg lift TRAIN, two bring it to SLOW. -/
theorem test_train_in :
    (after (.trainIn head [3, 78, 32]) st).train.reasons.train = .absent
      ∧ (after (.trainIn head [2, 78, 32]) st).train.reasons.train = .slow := by decide

/-- 07 R111: the pulse that reaches the capacity fills the car and moves on to the next. -/
theorem test_belt_pulse :
    ((after .beltPulse
      { st with
        train.cars := [{ fullCar with filled := 990, state := .filling }, { fullCar with filled := 0, state := .waiting }]
      }).train.cars.map Car.state) = [.full, .filling] := by decide

/-- 08 R122, R133: an armed line trips above its limit of 350 kPa. -/
theorem test_line :
    (after (.armLine head []) st).grout.line = .armed
      ∧ (after (.linePressureReading (some 351)) (after (.armLine head []) st)).grout.line = .tripped := by decide

/-- 08 R135: a g_min of 9 is clamped to 8. -/
theorem test_grout_minimum : (after (.setGroutMinimum head [9]) st).grout.gmin = 8 := by decide

/-- 09 R147, 10 R160: READ HISTORY of an empty history answers EMPTY. -/
theorem test_read_history :
    (after (.readHistory head [0]) st).bus.queue = [{ notice := .reply .cab 27 7 .done [64], offering := false }] := by
  decide

/-- 12 R166, R167: a good memory and address 2 give LISTENING; a wrong check byte or address 7 of 7 CONFIG FAULT. -/
theorem test_configuration :
    (after (.configurationRead 2 (goodMemory.map some)) State.reset).life = .listening
      ∧ (after (.configurationRead 7 (goodMemory.map some)) State.reset).life = .configFault
      ∧ (after (.configurationRead 2 ((goodMemory.set 31 0).map some)) State.reset).life = .configFault := by decide

/-- 02 R29: a station that reaches LISTENING with 8,001 kN at its input, against a trip force of 8,000, trips there and says
so; with 8,000 it does not. -/
theorem test_force_at_listening :
    let at_ (f : Nat) : State := after (.configurationRead 2 (goodMemory.map some)) { State.reset with inputs.force := f }
    (at_ 8001).thrust.mode = .tripped ∧ (at_ 8001).view.trips = [(2, .thrust)]
      ∧ (at_ 8001).bus.queue.head?.map QueueItem.notice = some (.trip .thrust) ∧ (at_ 8000).thrust.mode = .hold := by
  decide

/-- 12 R170: PIN RESET keeps ring 412, a power-on reset returns it to 0. -/
theorem test_resets : (after .pinReset st).records.ring = 412 ∧ (after .powerOnReset st).records.ring = 0 := by decide

/-- 10 R151, R153: the offer of a STATE that completes leaves the queue and advances the page count. -/
theorem test_offer :
    let s := after .offerCompleted (after .offerBegin (after .noticePeriodExpiry st))
    s.bus.page = 1 ∧ s.bus.lastSource = some 0 ∧ s.bus.queue = [] := by decide

/-- 04 R73, R68: another station's SET ends the work on the entry; the sequence stands in STANDBY after that event and goes on
at the next. -/
theorem test_work_ended :
    let s := after (.stepArrival 7 .set 412 0) { placingStation with erector.queue := [] }
    s.erector.seq = .standby ∧ s.build.index = 1 ∧ (after (.forceReading (some 0)) s).erector.seq = .awaitingClear := by
  decide

/-- 10 R158: a TRIP that arrives while a STATE is on offer stands behind it, and first once that offer has failed. -/
theorem test_trip_during_offer :
    let s := after (.forceReading (some 8001)) (after .offerBegin (after .noticePeriodExpiry st))
    s.bus.queue = [{ notice := .state, offering := true }, { notice := .trip .thrust, offering := false }]
      ∧ ((after .offerFailed s).bus.queue.map QueueItem.notice) = [.trip .thrust, .state] := by decide

/-- 10 R152: a foreign STATE makes the own address the last STATE source, another foreign notice does not. -/
theorem test_foreign_state :
    (after (.foreignOwnAddressNotice true) st).bus.lastSource = some 0
      ∧ (after (.foreignOwnAddressNotice false) st).bus.lastSource = none := by decide

/-- 06 R99: at 262 kPa with a band of 20 the support valve opens for a target of 283, stays open at 282 and shuts at 262. -/
theorem test_support :
    let at_ (pt : Nat) (open_ : Bool) : Bool :=
      (settle true
        { st with build.state := .suspended, screw.state := .buildHold, screw.target := some pt, screw.support := open_
        }).screw.support
    at_ 283 false = true ∧ at_ 282 true = true ∧ at_ 282 false = false ∧ at_ 262 true = false := by decide

/-- 08 R123, 03 R62: an adopting STATE that also brings a hold reason leaves an ARMED line ARMED and the marker clear. -/
theorem test_armed_at_adoption :
    let s := after (.stateArrival 7 { body with ring := 413, build := .building })
      { advancing with grout.line := .armed, screw.target := some 200, screw.state := .running }
    s.records.ring = 413 ∧ s.thrust.mode = .hold ∧ s.grout.line = .armed ∧ s.grout.used = false := by decide

/-! ### Every statement's hypotheses are met -/

theorem witness_StepTakesFrontEvent :
    ∃ (s : State), s.pending = [] :=
  ⟨st, by decide⟩

theorem witness_LifecycleAndConfigurationFixed :
    ∃ (c : Instr) (s : State) (t : State), exec c s = .next t :=
  ⟨.beltPulse, st, _, rfl⟩

theorem witness_CommandFormChecked :
    (∃ (i : Instr) (n : Nat) (h : CmdHead) (ops : List Byte) (s : State), commandOf i = some (n, h, ops) ∧ s.life =
      .starting) ∧ (∃ (i : Instr) (n : Nat) (h : CmdHead) (ops : List Byte) (s : State), commandOf i = some (n, h,
      ops) ∧ s.life ≠ .starting ∧ ops.length ≠ catalogueLength n ops) ∧ (∃ (h : CmdHead) (number : Byte) (ops : List
      Byte) (s : State), (number.toNat = 0 ∨ 30 < number.toNat) ∧ s.life ≠ .starting) :=
  ⟨⟨.startAdvance head [], 1, head, [], State.reset, by decide⟩, ⟨.setAdvanceLimits head [60, 1], 3, head, [60, 1],
    st, by decide⟩, ⟨head, 31, [], st, by decide⟩⟩

theorem witness_CommandChecksInOrder :
    (∃ (i : Instr) (n : Nat) (h : CmdHead) (ops : List Byte) (s : State), commandOf i = some (n, h, ops) ∧ s.life ≠
      .starting ∧ ops.length = catalogueLength n ops ∧ mayCommand n ops h.source = false) ∧ (∃ (i : Instr) (n : Nat)
      (h : CmdHead) (ops : List Byte) (s : State), commandOf i = some (n, h, ops) ∧ (s.life = .listening ∨ s.life =
      .configFault) ∧ ops.length = catalogueLength n ops ∧ mayCommand n ops h.source = true ∧ n ≠ 30) ∧ (∃ (i :
      Instr) (n : Nat) (h : CmdHead) (ops : List Byte) (s : State), commandOf i = some (n, h, ops) ∧ s.life = .ready
      ∧ ops.length = catalogueLength n ops ∧ mayCommand n ops h.source = true ∧ n ≠ 30 ∧ equipped n ops s.cfg.roles =
      false) :=
  ⟨⟨.setRing head [1, 157], 29, head, [1, 157], st, by decide⟩, ⟨.stopAdvance head [], 2, head, [],
    { st with life := .listening }, by decide⟩, ⟨.discardPiece head [], 11, head, [], st, by decide⟩⟩

theorem witness_OperandsOutOfRangeRefused :
    (∃ (h : CmdHead) (u : Nat) (s : State), 2 < u ∧ u < 256 ∧ s.life = .ready) ∧ (∃ (h : CmdHead) (v : Nat) (d : Nat)
      (s : State), v < 65536 ∧ 1 < d ∧ d < 256 ∧ s.life = .ready ∧ s.cfg.roles.drive = true) ∧ (∃ (h : CmdHead) (n :
      Nat) (c : Nat) (s : State), n < 256 ∧ (n = 0 ∨ 8 < n) ∧ c < 65536 ∧ s.life = .ready ∧ s.cfg.roles.screw = true)
      ∧ (∃ (h : CmdHead) (i : Nat) (s : State), 15 < i ∧ i < 256 ∧ s.life = .ready) ∧ (∃ (h : CmdHead) (ring : Nat)
      (es : List (Byte × Byte)) (s : State), ring < 65536 ∧ (es = [] ∨ 8 < es.length) ∧ es.length < 256 ∧ s.life =
      .ready) :=
  ⟨⟨head, 3, st, by decide⟩, ⟨head, 200, 2, st, by decide⟩, ⟨head, 9, 20000, st, by decide⟩, ⟨head, 16, st, by
    decide⟩, ⟨head, 412, [], st, by decide⟩⟩

theorem witness_EveryResetRestoresDefaults :
    ∃ (i : Instr) (s : State), (i = .powerOnReset ∨ i = .pinReset ∨ (s.life ≠ .starting ∧ ∃ h : CmdHead, h.source =
      .service ∧ i = .restart h [])) :=
  ⟨.pinReset, st, .inr (.inl rfl)⟩

theorem witness_ConfigurationReadDecides :
    (∃ (pins : BitVec 3) (m : List Byte) (s : State), s.life = .starting ∧ m.length = 32 ∧ ((m.getD 31 0).toNat ≠ 255
      - ((m.take 31).map BitVec.toNat).sum % 256 ∨ m.getD 0 0 ≠ 58 ∨ max 4 (min (m.getD 1 0).toNat 8) ≤ pins.toNat))
      ∧ (∃ (pins : BitVec 3) (m : List Byte) (s : State), s.life = .starting ∧ m.length = 32 ∧ (m.getD 31 0).toNat =
      255 - ((m.take 31).map BitVec.toNat).sum % 256 ∧ m.getD 0 0 = 58 ∧ pins.toNat < max 4 (min (m.getD 1 0).toNat
      8)) ∧ (∃ (pins : BitVec 3) (bytes : List (Option Byte)) (s : State), bytes.length = 32) ∧ (∃ (pins : BitVec 3)
      (s : State), s.life = .starting) ∧ (∃ (pins : BitVec 3) (bytes : List (Option Byte)) (s : State), s.life ≠
      .starting) :=
  ⟨⟨7, goodMemory, State.reset, by decide⟩, ⟨6, goodMemory, State.reset, by decide⟩, ⟨6, List.replicate 32 none,
    State.reset, by decide⟩, ⟨7, State.reset, by decide⟩, ⟨2, [], st, by decide⟩⟩

theorem witness_AdvanceCommandsSetStopped :
    (∃ (h : CmdHead) (s : State), s.life = .ready ∧ s.build.state = .ringOpen) ∧ (∃ (h : CmdHead) (s : State), s.life
      = .ready ∧ s.build.state ≠ .ringOpen) ∧ (∃ (h : CmdHead) (s : State), s.life = .ready) :=
  ⟨⟨head, st, by decide⟩, ⟨head, { st with build.state := .building }, by decide⟩, ⟨head, st, by decide⟩⟩

theorem witness_AdvanceLimitsClampedAndUsed :
    (∃ (h : CmdHead) (v : Nat) (p : Nat) (s : State), v < 256 ∧ p < 65536 ∧ s.life = .ready) ∧ (∃ (h : CmdHead) (s :
      State), h.source = .service ∧ s.life ≠ .starting) :=
  ⟨⟨head, 255, 65535, st, by decide⟩, ⟨{ head with source := .service }, st, by decide⟩⟩

theorem witness_ThrustTripCleared :
    (∃ (h : CmdHead) (s : State), s.life = .ready ∧ s.thrust.mode = .tripped ∧ s.inputs.force * 10 ≤ s.cfg.tripForce
      * 9) ∧ (∃ (h : CmdHead) (s : State), s.life = .ready ∧ s.thrust.mode = .tripped ∧ s.cfg.tripForce * 9 <
      s.inputs.force * 10) ∧ (∃ (h : CmdHead) (s : State), s.life = .ready ∧ s.thrust.mode ≠ .tripped) :=
  ⟨⟨head, { st with thrust.mode := .tripped, inputs.force := 7200 }, by decide⟩, ⟨head,
    { st with thrust.mode := .tripped, inputs.force := 7201 }, by decide⟩, ⟨head, st, by decide⟩⟩

theorem witness_StrokeReadingCounted :
    (∃ (r : Reading) (s : State), s.running = true ∧ readingFits 32767 r = true ∧ s.thrust.advance ≤ 65535) ∧ (∃ (r :
      Reading) (s : State), s.running = false ∧ readingFits 32767 r = true) :=
  ⟨⟨some 32767, { st with thrust.mode := .advance, thrust.mark := some 10, thrust.advance := 65535 }, by decide⟩,
    ⟨none, State.reset, by decide⟩⟩

theorem witness_ForceReadingJudged :
    (∃ (r : Reading) (s : State), s.running = true ∧ readingFits 20000 r = true ∧ s.cfg.tripForce < r.getD 20000 ∧
      s.thrust.mode ≠ .tripped) ∧ (∃ (r : Reading) (s : State), s.running = true ∧ readingFits 20000 r = true ∧
      r.getD 20000 ≤ s.cfg.tripForce ∧ s.thrust.mode = .pressing ∧ s.cfg.pressForce ≤ r.getD 20000) ∧ (∃ (r :
      Reading) (s : State), s.running = true ∧ readingFits 20000 r = true ∧ (r.getD 20000 ≤ s.cfg.tripForce ∨
      s.thrust.mode = .tripped) ∧ (s.thrust.mode ≠ .pressing ∨ r.getD 20000 < s.cfg.pressForce)) :=
  ⟨⟨some 8001, st, by decide⟩, ⟨some 1500, { st with thrust.mode := .pressing }, by decide⟩, ⟨some 8000, st, by
    decide⟩⟩

theorem witness_RetractedLimitTakesToClear :
    ∃ (active : Bool) (s : State), s.running = true :=
  ⟨true, { st with thrust.mode := .retracting }, by decide⟩

theorem witness_StateArrivalKept :
    (∃ (src : Nat) (body : StateBody) (s : State), s.running = true ∧ src < 8 ∧ src < s.cfg.n ∧ src ≠ s.own) ∧ (∃
      (src : Nat) (body : StateBody) (x : Heard) (s : State), s.life = .ready ∧ src < 8 ∧ src < s.cfg.n ∧ src ≠ s.own
      ∧ s.view.peers.length = 8 ∧ ((s.cfg.roles.erector = true → src < s.own)) ∧ body.roles.erector = true ∧
      (freshPeers s).all (fun p => !p.2.roles.erector || decide (src ≤ p.1)) = true ∧ (entryOf s src).held = some x ∧
      x.body.build = .building ∧ body.build = .suspended ∧ body.ring = s.records.ring ∧ s.build.state = .building) ∧
      (∃ (src : Nat) (body : StateBody) (e : PlanEntry) (s : State), s.life = .ready ∧ src < 8 ∧ src < s.cfg.n ∧ src
      ≠ s.own ∧ s.view.peers.length = 8 ∧ s.cfg.roles.erector = false ∧ body.roles.erector = true ∧ (freshPeers
      s).all (fun p => !p.2.roles.erector || decide (src ≤ p.1)) = true ∧ body.ring = s.records.ring ∧ (body.build ≠
      .ringOpen ∨ body.ring ≠ 65535) ∧ s.build.state ≠ .ringOpen ∧ s.build.index < body.index ∧
      s.build.entries[body.index]? = some e) ∧ (∃ (src : Nat) (body : StateBody) (s : State), s.life = .ready ∧ src <
      8 ∧ src < s.cfg.n ∧ src ≠ s.own ∧ s.view.peers.length = 8 ∧ s.cfg.roles.erector = false ∧ body.roles.erector =
      true ∧ (freshPeers s).all (fun p => !p.2.roles.erector || decide (src ≤ p.1)) = true ∧ body.ring =
      s.records.ring ∧ (body.build ≠ .ringOpen ∨ body.ring ≠ 65535) ∧ s.build.state ≠ .ringOpen ∧ s.build.index <
      body.index ∧ s.build.entries.length ≤ body.index) :=
  ⟨⟨7, body, st, by decide⟩, ⟨7,
    { body with roles := { Roles.none with erector := true }, build := .suspended, index := 0 },
    { body := { body with roles := { Roles.none with erector := true }, build := .building, index := 0 }, age := 0, fresh := true },
    { st with build.state := .building, build.entries := planAs .claimed, view.peers := List.replicate 7 PeerEntry.absent ++ [peer { body with roles := { Roles.none with erector := true }, build := .building, index := 0 }] },
    by decide⟩, ⟨7, { body with roles := { Roles.none with erector := true }, build := .building, index := 1 },
    keyEntry,
    { st with build.state := .building, build.entries := planAs .claimed, view.peers := List.replicate 7 PeerEntry.absent ++ [peer { body with roles := { Roles.none with erector := true }, build := .building, index := 0 }] },
    by decide, by decide, by decide, by decide, by decide, by decide, by decide, by decide, by decide, .inl (by
    decide), by decide, by decide, by decide⟩, ⟨7,
    { body with roles := { Roles.none with erector := true }, build := .building, index := 2 },
    { st with build.state := .building, build.entries := planAs .claimed, view.peers := List.replicate 7 PeerEntry.absent ++ [peer { body with roles := { Roles.none with erector := true }, build := .building, index := 0 }] },
    by decide⟩⟩

theorem witness_TripAndPaceArrivalsKept :
    (∃ (src : Nat) (cause : TripCause) (s : State), s.running = true ∧ src < s.cfg.n ∧ src < 8 ∧ src ≠ s.own ∧ cause
      ≠ .cabStop) ∧ (∃ (s : State), s.running = true ∧ s.own < 8) ∧ (∃ (src : Nat) (cause : TripCause) (s : State),
      src ≠ s.own ∧ ((src ≠ 14 ∧ (s.cfg.n ≤ src ∨ cause = .cabStop)) ∨ (src = 14 ∧ cause ≠ .cabStop))) ∧ (∃ (src :
      Nat) (p : Pace) (s : State), s.running = true ∧ src < s.cfg.n ∧ src < 8 ∧ src ≠ s.own) ∧ (∃ (src : Nat) (p :
      Pace) (s : State), src ≠ s.own ∧ s.cfg.n ≤ src) :=
  ⟨⟨7, .stall, st, by decide⟩, ⟨st, by decide⟩, ⟨8, .thrust, st, by decide⟩, ⟨7, .slow, st, by decide⟩, ⟨8, .slow,
    st, by decide⟩⟩

theorem witness_NoticePeriodAgesAndReports :
    (∃ (d : Nat) (s : State), s.running = true ∧ s.clock.noticeDue = some d) ∧ (∃ (s : State), s.clock.noticeDue =
      none) :=
  ⟨⟨5050, st, by decide⟩, ⟨State.reset, by decide⟩⟩

theorem witness_SilenceAndRetryWaitEnd :
    (∃ (d : Nat) (s : State), s.life = .ready ∧ s.clock.noticeDue = some d ∧ s.view.heard = true ∧ s.view.blind =
      false ∧ s.view.silence + 1 = s.cfg.k ∧ freshPeers (ageView s) = []) ∧ (∃ (d : Nat) (c : Nat) (s : State),
      s.life = .ready ∧ s.clock.noticeDue = some d ∧ s.cfg.roles.erector = false ∧ s.build.state = .building ∧
      s.build.retry = some c ∧ s.cfg.k ≤ c + 1 ∧ marginMet (ageView s) = true ∧ freshPeers (ageView s) ≠ [] ∧
      s.view.trips = [] ∧ s.view.blind = false) :=
  ⟨⟨5050, { st with view.peers := List.replicate 8 PeerEntry.absent, view.heard := true, view.silence := 2 }, by
    decide⟩, ⟨5050, 2, { st with build.state := .building, build.entries := plan, build.retry := some 2 }, by
    decide⟩⟩

theorem witness_DriveAndCabTripsCleared :
    (∃ (h : CmdHead) (s : State), s.life = .ready ∧ s.cfg.roles.drive = true ∧ s.drive.state = .stalled ∧
      s.inputs.speed < 5 ∧ s.inputs.torque < 100) ∧ (∃ (h : CmdHead) (s : State), s.life = .ready ∧ s.cfg.roles.drive
      = true ∧ s.drive.state = .stalled ∧ (5 ≤ s.inputs.speed ∨ 100 ≤ s.inputs.torque)) ∧ (∃ (h : CmdHead) (s :
      State), s.life = .ready ∧ s.cfg.roles.drive = true ∧ s.drive.state ≠ .stalled) ∧ (∃ (h : CmdHead) (s : State),
      s.life = .ready ∧ s.cfg.roles.drive = false) ∧ (∃ (h : CmdHead) (s : State), s.life = .ready ∧ h.source = .cab)
      :=
  ⟨⟨head, { st with drive.state := .stalled, inputs.speed := 4, inputs.torque := 99 }, by decide⟩, ⟨head,
    { st with drive.state := .stalled, inputs.speed := 5 }, by decide⟩, ⟨head, st, by decide⟩, ⟨head,
    { st with cfg.roles.drive := false }, by decide⟩, ⟨head, st, by decide⟩⟩

theorem witness_LoadPlanChecksAndEffect :
    (∃ (h : CmdHead) (ring : Nat) (es : List (Byte × Byte)) (s : State), s.life = .ready ∧ s.build.state = .ringOpen
      ∧ ring < 65536 ∧ ring = s.records.ring ∧ 1 ≤ es.length ∧ es.length ≤ 8 ∧ (List.range es.length).all (fun j =>
      !badAt s.cfg.n es j) = true) ∧ (∃ (h : CmdHead) (ring : Nat) (j : Nat) (es : List (Byte × Byte)) (s : State),
      s.life = .ready ∧ ring < 65536 ∧ es.length ≤ 8 ∧ j < es.length ∧ badAt s.cfg.n es j = true ∧ (List.range j).all
      (fun i => !badAt s.cfg.n es i) = true) ∧ (∃ (h : CmdHead) (ring : Nat) (es : List (Byte × Byte)) (s : State),
      s.life = .ready ∧ ring < 65536 ∧ 1 ≤ es.length ∧ es.length ≤ 8 ∧ (List.range es.length).all (fun j => !badAt
      s.cfg.n es j) = true ∧ s.build.state = .building) ∧ (∃ (h : CmdHead) (ring : Nat) (es : List (Byte × Byte)) (s
      : State), s.life = .ready ∧ ring < 65536 ∧ 1 ≤ es.length ∧ es.length ≤ 8 ∧ (List.range es.length).all (fun j =>
      !badAt s.cfg.n es j) = true ∧ s.build.state ≠ .building ∧ ring ≠ s.records.ring) ∧ (∃ (h : CmdHead) (es : List
      (Byte × Byte)) (s : State), s.life = .ready ∧ s.records.ring < 65536 ∧ 1 ≤ es.length ∧ es.length ≤ 8 ∧
      (List.range es.length).all (fun j => !badAt s.cfg.n es j) = true ∧ s.build.state = .suspended ∧
      (currentEntryState s = some .claimed ∨ currentEntryState s = some .placed)) ∧ (∃ (h : CmdHead) (es : List (Byte
      × Byte)) (s : State), s.life = .ready ∧ s.records.ring < 65536 ∧ 1 ≤ es.length ∧ es.length ≤ 8 ∧ (List.range
      es.length).all (fun j => !badAt s.cfg.n es j) = true ∧ s.build.state = .suspended ∧ currentEntryState s ≠ some
      .claimed ∧ currentEntryState s ≠ some .placed ∧ s.build.index ≤ s.build.entries.length ∧ (es.length ≤
      s.build.index ∨ (s.build.entries.take s.build.index).map (fun e => (e.piece, e.key, e.cover)) ≠ ((es.map
      readEntry).take s.build.index).map (fun e => (e.piece, e.key, e.cover)))) ∧ (∃ (h : CmdHead) (es : List (Byte ×
      Byte)) (s : State), s.life = .ready ∧ s.records.ring < 65536 ∧ es.length ≤ 8 ∧ (List.range es.length).all (fun
      j => !badAt s.cfg.n es j) = true ∧ s.build.state = .suspended ∧ currentEntryState s ≠ some .claimed ∧
      currentEntryState s ≠ some .placed ∧ s.build.index < es.length ∧ (es.take s.build.index).all (fun b =>
      !b.1.getLsbD 7) = true ∧ (s.build.entries.take s.build.index).map (fun e => (e.piece, e.key, e.cover)) =
      ((es.map readEntry).take s.build.index).map (fun e => (e.piece, e.key, e.cover)) ∧ (s.cfg.roles.erector = false
      ∨ s.erector.seq = .standby)) :=
  ⟨⟨head, 412, planBytes, st, by decide⟩, ⟨head, 412, 1, [(0, 1), (64, 0)], st, by decide⟩, ⟨head, 412, planBytes,
    { st with build.state := .building }, by decide⟩, ⟨head, 411, planBytes, st, by decide⟩, ⟨head, planBytes,
    { st with build.state := .suspended, build.entries := planAs .claimed }, by decide⟩, ⟨head, planBytes,
    { st with build.state := .suspended, build.entries := planAs .set, build.index := 2 }, by decide⟩, ⟨head,
    planBytes, { st with build.state := .suspended, build.entries := planAs .pending }, by decide⟩⟩

theorem witness_BeginBuildChecksAndEffect :
    (∃ (h : CmdHead) (ring : Nat) (r : Result) (s : State), s.life = .ready ∧ ring < 65536 ∧ ((if s.build.state ≠
      .ringOpen then some Result.busy else if ring ≠ s.records.ring then some .planMismatch else if s.build.entries =
      [] ∨ s.build.planRing ≠ s.records.ring then some .notReady else if s.build.entries.any (fun e => e.state =
      .empty) = true then some .notReady else if s.thrust.mode ≠ .hold then some .notReady else if s.thrust.advance <
      s.cfg.w then some .notReady else if s.view.trips ≠ [] then some .notReady else if s.view.blind = true then some
      .notReady else none) = some r)) ∧ (∃ (h : CmdHead) (s : State), s.life = .ready ∧ s.records.ring < 65536 ∧
      s.build.state = .ringOpen ∧ s.build.entries ≠ [] ∧ s.build.planRing = s.records.ring ∧ s.build.entries.any (fun
      e => e.state = .empty) = false ∧ s.thrust.mode = .hold ∧ s.cfg.w ≤ s.thrust.advance ∧ s.view.trips = [] ∧
      s.view.blind = false) :=
  ⟨⟨head, 412, .notReady, st, by decide⟩, ⟨head,
    { st with build.entries := plan, build.planRing := 412, thrust.advance := 14000 }, by decide⟩⟩

theorem witness_BuildSuspendedResumedAbandoned :
    (∃ (h : CmdHead) (s : State), s.life = .ready ∧ s.build.state = .building) ∧ (∃ (h : CmdHead) (s : State), s.life
      = .ready ∧ s.build.state ≠ .building) ∧ (∃ (h : CmdHead) (s : State), s.life = .ready ∧ s.build.state =
      .ringOpen) ∧ (∃ (h : CmdHead) (s : State), s.life = .ready ∧ s.build.state = .building) ∧ (∃ (h : CmdHead) (s :
      State), s.life = .ready ∧ s.build.state = .suspended ∧ (currentEntryState s = some .claimed ∨ currentEntryState
      s = some .placed)) ∧ (∃ (h : CmdHead) (s : State), s.life = .ready ∧ s.build.state = .suspended ∧
      currentEntryState s = some .empty) ∧ (∃ (h : CmdHead) (s : State), s.life = .ready ∧ s.build.state = .suspended
      ∧ currentEntryState s = some .pending ∧ (s.view.trips ≠ [] ∨ s.view.blind = true ∨ (erectorStation s = some
      s.own ∧ s.erector.feederMismatch = true))) ∧ (∃ (h : CmdHead) (s : State), s.life = .ready ∧ s.build.state =
      .suspended ∧ currentEntryState s = some .pending ∧ s.view.trips = [] ∧ s.view.blind = false ∧ (erectorStation s
      ≠ some s.own ∨ s.erector.feederMismatch = false)) ∧ (∃ (h : CmdHead) (s : State), s.life = .ready ∧
      s.build.state = .ringOpen) ∧ (∃ (h : CmdHead) (s : State), s.life = .ready ∧ s.build.state ≠ .ringOpen) :=
  ⟨⟨head, { st with build.state := .building }, by decide⟩, ⟨head, st, by decide⟩, ⟨head, st, by decide⟩, ⟨head,
    { st with build.state := .building }, by decide⟩, ⟨head,
    { st with build.state := .suspended, build.entries := planAs .placed }, by decide⟩, ⟨head,
    { st with build.state := .suspended, build.entries := planAs .empty }, by decide⟩, ⟨head,
    { st with build.state := .suspended, build.entries := planAs .pending, view.blind := true }, by decide⟩, ⟨head,
    { st with build.state := .suspended, build.entries := planAs .pending }, by decide⟩, ⟨head, st, by decide⟩,
    ⟨head, { st with build.state := .suspended }, by decide⟩⟩

theorem witness_MarginSetAndWatched :
    ∃ (h : CmdHead) (m : Nat) (s : State), m < 65536 ∧ s.life = .ready :=
  ⟨head, 65535, st, by decide⟩

theorem witness_StepNoticesApplied :
    (∃ (src : Nat) (a : StepAction) (e : PlanEntry) (s : State), s.life = .ready ∧ src < s.cfg.n ∧ src ≠ s.own ∧
      s.cfg.roles.erector = false ∧ s.build.state ≠ .ringOpen ∧ s.build.entries[s.build.index]? = some e ∧ a ≠ .set ∧
      (e.state = .pending ∨ e.state = .claimed ∨ e.state = .placed)) ∧ (∃ (src : Nat) (a : StepAction) (ring : Nat)
      (index : Nat) (s : State), s.life = .ready ∧ src < s.cfg.n ∧ src ≠ s.own ∧ s.build.state = .ringOpen) ∧ (∃ (src
      : Nat) (a : StepAction) (ring : Nat) (index : Nat) (s : State), s.life = .ready ∧ src < s.cfg.n ∧ src ≠ s.own ∧
      s.cfg.roles.erector = false ∧ s.build.state ≠ .ringOpen ∧ (ring < s.records.ring ∨ (ring = s.records.ring ∧
      index < s.build.entries.length ∧ index < s.build.index))) ∧ (∃ (src : Nat) (a : StepAction) (ring : Nat) (index
      : Nat) (s : State), s.life = .ready ∧ src < s.cfg.n ∧ src ≠ s.own ∧ s.cfg.roles.erector = false ∧ s.build.state
      ≠ .ringOpen ∧ (s.records.ring < ring ∨ (ring = s.records.ring ∧ s.build.entries.length ≤ index))) ∧ (∃ (src :
      Nat) (e : PlanEntry) (s : State), s.life = .ready ∧ src < s.cfg.n ∧ src ≠ s.own ∧ s.cfg.roles.erector = false ∧
      s.build.state ≠ .ringOpen ∧ s.build.entries[s.build.index]? = some e ∧ e.key = false) ∧ (∃ (src : Nat) (index :
      Nat) (a : StepAction) (e : PlanEntry) (s : State), s.life = .ready ∧ src < s.cfg.n ∧ src ≠ s.own ∧
      s.cfg.roles.erector = false ∧ s.build.state ≠ .ringOpen ∧ s.build.index < index ∧ s.build.entries[index]? =
      some e ∧ a ≠ .set) ∧ (∃ (src : Nat) (index : Nat) (e : PlanEntry) (s : State), s.life = .ready ∧ src < s.cfg.n
      ∧ src ≠ s.own ∧ s.cfg.roles.erector = false ∧ s.build.state ≠ .ringOpen ∧ s.build.index < index ∧
      s.build.entries[index]? = some e ∧ e.key = false) ∧ (∃ (src : Nat) (index : Nat) (e : PlanEntry) (s : State),
      s.life = .ready ∧ src < s.cfg.n ∧ src ≠ s.own ∧ s.build.state ≠ .ringOpen ∧ s.build.index < index ∧
      s.build.entries[index]? = some e ∧ e.key = true) ∧ (∃ (src : Nat) (index : Nat) (a : StepAction) (e :
      PlanEntry) (w : Working) (s : State), s.life = .ready ∧ src < s.cfg.n ∧ src ≠ s.own ∧ s.cfg.roles.erector =
      true ∧ s.build.state = .building ∧ (s.erector.seq = .awaitingClear ∨ s.erector.seq = .placing) ∧ atWork s w ∧
      s.build.entries[index]? = some e ∧ ((s.build.index = index ∧ a = .set) ∨ s.build.index < index)) ∧ (∃ (src :
      Nat) (a : StepAction) (ring : Nat) (index : Nat) (s : State), src ≠ s.own ∧ (s.life ≠ .ready ∨ s.cfg.n ≤ src))
      :=
  ⟨⟨7, .placed, planEntryAs .claimed, { st with build.state := .building, build.entries := planAs .claimed }, by
    decide⟩, ⟨7, .claim, 412, 0, st, by decide⟩, ⟨7, .claim, 411, 0,
    { st with build.state := .building, build.entries := planAs .pending }, by decide⟩, ⟨7, .claim, 412, 2,
    { st with build.state := .building, build.entries := planAs .pending }, by decide⟩, ⟨7, planEntryAs .placed,
    { st with build.state := .building, build.entries := planAs .placed }, by decide⟩, ⟨7, 1, .claim, keyEntry,
    { st with build.state := .building, build.entries := planAs .placed }, by decide⟩, ⟨7, 1, planEntryAs .placed,
    { st with build.state := .building, build.entries := [planEntryAs .placed, planEntryAs .placed, keyEntry] }, by
    decide⟩, ⟨7, 1, keyEntry, { st with build.state := .building, build.entries := planAs .placed }, by decide⟩, ⟨7,
    0, .set, planEntryAs .claimed, workAt0, placingStation, by decide, by decide, by decide, by decide, by decide, by
    decide, placingStation_atWork, by decide, by decide⟩, ⟨8, .claim, 412, 0, st, by decide⟩⟩

theorem witness_KeySetClosesRing :
    ∃ (src : Nat) (e : PlanEntry) (s : State), s.life = .ready ∧ src < s.cfg.n ∧ src ≠ s.own ∧ s.build.state ≠
      .ringOpen ∧ s.build.entries[s.build.index]? = some e ∧ e.key = true :=
  ⟨7, keyEntry, { st with build.state := .building, build.entries := planAs .placed, build.index := 1 }, by decide⟩

theorem witness_HigherRingAdopted :
    (∃ (src : Nat) (body : StateBody) (s : State), s.life = .ready ∧ src < 8 ∧ src < s.cfg.n ∧ src ≠ s.own ∧
      s.view.peers.length = 8 ∧ s.records.ring < body.ring ∧ s.records.ring < 65535) ∧ (∃ (src : Nat) (body :
      StateBody) (x : Heard) (s : State), s.life = .ready ∧ src < 8 ∧ src < s.cfg.n ∧ src ≠ s.own ∧
      s.view.peers.length = 8 ∧ s.records.ring = 65535 ∧ s.build.state ≠ .ringOpen ∧ body.ring = 65535 ∧ body.build =
      .ringOpen ∧ (entryOf s src).held = some x ∧ x.body.ring = 65535 ∧ x.body.build ≠ .ringOpen ∧ body.roles.erector
      = true ∧ ((s.cfg.roles.erector = true → src < s.own)) ∧ (freshPeers s).all (fun p => !p.2.roles.erector ||
      decide (src ≤ p.1)) = true) ∧ (∃ (src : Nat) (body : StateBody) (s : State), s.life = .listening ∧ src < 8 ∧
      src < s.cfg.n ∧ src ≠ s.own ∧ s.records.ring < body.ring) ∧ (∃ (src : Nat) (body : StateBody) (s : State),
      s.running = true ∧ src < 8 ∧ src < s.cfg.n ∧ src ≠ s.own ∧ body.ring ≤ s.records.ring ∧ s.records.ring < 65535
      ∧ s.cfg.roles.erector = false) :=
  ⟨⟨7, { body with ring := 65535 }, { st with records.ring := 65534 }, by decide⟩, ⟨7,
    { body with ring := 65535, roles := { Roles.none with erector := true } },
    { body := { body with ring := 65535, build := .building }, age := 0, fresh := true },
    { st with records.ring := 65535, build.state := .building, view.peers := List.replicate 7 PeerEntry.absent ++ [peer { body with ring := 65535, build := .building }] },
    by decide⟩, ⟨7, { body with ring := 413 }, { st with life := .listening }, by decide⟩, ⟨7, body, st, by decide⟩⟩

theorem witness_FeederQueueAndSeating :
    (∃ (h : CmdHead) (s : State), s.life = .ready ∧ s.cfg.roles.erector = true ∧ s.erector.seq = .placing) ∧ (∃ (h :
      CmdHead) (s : State), s.life = .ready ∧ s.cfg.roles.erector = true ∧ s.erector.seq ≠ .placing ∧ s.erector.queue
      = []) ∧ (∃ (h : CmdHead) (p : Piece) (ps : List Piece) (s : State), s.life = .ready ∧ s.cfg.roles.erector =
      true ∧ s.erector.seq ≠ .placing ∧ s.erector.queue = p :: ps ∧ p.piece < 8) ∧ (∃ (piece : BitVec 3) (key : Bool)
      (s : State), s.running = true ∧ s.cfg.roles.erector = true ∧ s.erector.queue.length < 8) ∧ (∃ (piece : BitVec
      3) (key : Bool) (s : State), s.running = true ∧ s.cfg.roles.erector = true ∧ 8 ≤ s.erector.queue.length) ∧ (∃
      (piece : BitVec 3) (key : Bool) (s : State), (s.running = false ∨ s.cfg.roles.erector = false)) ∧ (∃ (w :
      Working) (s : State), s.running = true ∧ s.cfg.roles.erector = true ∧ s.inputs.seated = false ∧ s.erector.seq =
      .placing ∧ s.erector.working = some w) ∧ (∃ (level : Bool) (s : State), (level = false ∨ s.inputs.seated = true
      ∨ s.erector.seq ≠ .placing)) :=
  ⟨⟨head, { st with cfg.roles.erector := true, erector.seq := .placing }, by decide⟩, ⟨head,
    { st with cfg.roles.erector := true }, by decide⟩, ⟨head, piece, [],
    { st with cfg.roles.erector := true, erector.queue := [piece] }, by decide⟩, ⟨7, true,
    { st with cfg.roles.erector := true, erector.queue := List.replicate 7 piece }, by decide⟩, ⟨7, true,
    { st with cfg.roles.erector := true, erector.queue := List.replicate 8 piece }, by decide⟩, ⟨0, false, st, by
    decide⟩, ⟨{ ring := 412, index := 0, piece := 3, key := false, cover := [0, 1] },
    { st with cfg.roles.erector := true, erector.seq := .placing, erector.working := some { ring := 412, index := 0, piece := 3, key := false, cover := [0, 1] } },
    by decide⟩, ⟨false, st, by decide⟩⟩

theorem witness_CutterheadStartedAndStopped :
    (∃ (h : CmdHead) (v : Nat) (ccw : Bool) (s : State), s.life = .ready ∧ s.cfg.roles.drive = true ∧ 0 < v ∧ v <
      65536 ∧ s.drive.state = .off ∧ (s.drive.direction = (if ccw then .ccw else .cw) ∨ s.inputs.speed < 5) ∧
      s.build.state = .ringOpen ∧ peerBuilding s = false ∧ (spoilStation s).isSome = true ∧ s.view.trips = [] ∧
      s.view.blind = false) ∧ (∃ (h : CmdHead) (v : Nat) (s : State), s.life = .ready ∧ s.cfg.roles.drive = true ∧ 0
      < v ∧ v < 65536 ∧ s.drive.state = .stopping ∧ s.build.state = .ringOpen ∧ peerBuilding s = false ∧
      (spoilStation s).isSome = true ∧ s.view.trips = [] ∧ s.view.blind = false) ∧ (∃ (h : CmdHead) (ccw : Bool) (s :
      State), s.life = .ready ∧ s.cfg.roles.drive = true ∧ ((s.drive.state = .off ∧ s.inputs.speed < 5) ∨
      ((s.drive.state = .off ∨ s.drive.state = .stopping) ∧ s.drive.direction = (if ccw then .ccw else .cw)))) ∧ (∃
      (h : CmdHead) (v : Nat) (ccw : Bool) (s : State), s.life = .ready ∧ s.cfg.roles.drive = true ∧ 0 < v ∧ v <
      65536 ∧ ((s.drive.state = .off ∧ s.inputs.speed < 5) ∨ ((s.drive.state = .off ∨ s.drive.state = .stopping) ∧
      s.drive.direction = (if ccw then .ccw else .cw))) ∧ (s.build.state ≠ .ringOpen ∨ peerBuilding s = true ∨
      spoilStation s = none ∨ s.view.trips ≠ [] ∨ s.view.blind = true)) ∧ (∃ (h : CmdHead) (v : Nat) (ccw : Bool) (s
      : State), s.life = .ready ∧ s.cfg.roles.drive = true ∧ v < 65536 ∧ (s.drive.state = .stalled ∨
      (s.drive.direction ≠ (if ccw then .ccw else .cw) ∧ (s.drive.state = .starting ∨ s.drive.state = .running ∨
      s.drive.state = .stopping ∨ (s.drive.state = .off ∧ 5 ≤ s.inputs.speed))))) ∧ (∃ (h : CmdHead) (v : Nat) (s :
      State), s.life = .ready ∧ s.cfg.roles.drive = true ∧ v < 65536 ∧ (s.drive.state = .starting ∨ s.drive.state =
      .running)) ∧ (∃ (h : CmdHead) (s : State), s.life = .ready ∧ s.cfg.roles.drive = true ∧ (s.drive.state =
      .starting ∨ s.drive.state = .running)) ∧ (∃ (h : CmdHead) (s : State), s.life = .ready ∧ s.cfg.roles.drive =
      true ∧ s.drive.state ≠ .starting ∧ s.drive.state ≠ .running) :=
  ⟨⟨head, 450, true, st, by decide⟩, ⟨head, 451, { st with drive.state := .stopping, drive.command := 1 }, by
    decide⟩, ⟨head, false, { st with drive.state := .stopping }, by decide⟩, ⟨head, 1, false,
    { st with view.blind := true }, by decide⟩, ⟨head, 65535, true,
    { st with drive.state := .off, inputs.speed := 5 }, by decide⟩, ⟨head, 0, { st with drive.state := .running }, by
    decide⟩, ⟨head, { st with drive.state := .starting }, by decide⟩, ⟨head, { st with drive.state := .stopping }, by
    decide⟩⟩

theorem witness_DriveLimitsSetAndTimerJudged :
    (∃ (h : CmdHead) (a : Nat) (b : Nat) (c : Nat) (s : State), a < 65536 ∧ b < 65536 ∧ c < 256 ∧ s.life = .ready ∧
      s.cfg.roles.drive = true ∧ (s.drive.stallStart = none ∨ s.inputs.torque < max 1100 (min b 1800) ∨ (∀ t0,
      s.drive.stallStart = some t0 → s.clock.now < t0 + max 1 (min c 10) * 1000))) ∧ (∃ (h : CmdHead) (a : Nat) (b :
      Nat) (c : Nat) (t0 : Nat) (s : State), a < 65536 ∧ b < 65536 ∧ c < 256 ∧ s.life = .ready ∧ s.cfg.roles.drive =
      true ∧ s.drive.stallStart = some t0 ∧ max 1100 (min b 1800) ≤ s.inputs.torque ∧ t0 + max 1 (min c 10) * 1000 ≤
      s.clock.now) :=
  ⟨⟨head, 9, 1801, 11, st, by decide, by decide, by decide, by decide, by decide, .inl (by decide)⟩, ⟨head, 9, 1100,
    1, 4000, { st with drive.state := .running, drive.stallStart := some 4000, inputs.torque := 1100 }, by decide⟩⟩

theorem witness_DriveIntervalRampsAndStops :
    (∃ (d : Nat) (s : State), s.running = true ∧ s.clock.driveDue = some d ∧ (s.drive.state = .starting ∨
      s.drive.state = .running) ∧ s.build.state = .ringOpen ∧ peerBuilding s = false ∧ (spoilStation s).isSome = true
      ∧ s.view.trips = [] ∧ s.view.blind = false ∧ s.drive.accumulator < 599999400) ∧ (∃ (d : Nat) (s : State),
      s.running = true ∧ s.clock.driveDue = some d ∧ s.drive.state = .stopping ∧ s.erector.seq ≠ .awaitingPress) ∧ (∃
      (d : Nat) (s : State), s.running = true ∧ s.clock.driveDue = some d ∧ (s.drive.state = .absent ∨ s.drive.state
      = .off ∨ s.drive.state = .stalled)) :=
  ⟨⟨5100, { st with drive.state := .running, drive.accumulator := 599999399 }, by decide⟩, ⟨5100,
    { st with drive.state := .stopping }, by decide⟩, ⟨5100, st, by decide⟩⟩

theorem witness_TorqueSpeedAndStall :
    (∃ (r : Reading) (s : State), s.running = true ∧ s.drive.state ≠ .absent ∧ readingFits 2000 r = true) ∧ (∃ (t0 :
      Nat) (s : State), s.running = true ∧ s.drive.stallStart = some t0) ∧ (∃ (s : State), s.drive.stallStart = none)
      ∧ (∃ (r : Reading) (s : State), s.running = true ∧ s.drive.state ≠ .absent ∧ readingFits 600 r = true) ∧ (∃ (r
      : Reading) (s : State), (s.running = false ∨ s.drive.state = .absent) ∧ readingFits 600 r = true) :=
  ⟨⟨some 2000, st, by decide⟩, ⟨4000, { st with drive.stallStart := some 4000 }, by decide⟩, ⟨st, by decide⟩, ⟨none,
    st, by decide⟩, ⟨some 600, { st with drive.state := .absent }, by decide⟩⟩

theorem witness_FacePressureSetAndRead :
    (∃ (h : CmdHead) (p : Nat) (b : Nat) (g : Nat) (s : State), p < 65536 ∧ b < 256 ∧ g < 256 ∧ s.life = .ready ∧
      s.cfg.roles.screw = true) ∧ (∃ (r : Reading) (s : State), s.running = true ∧ readingFits 1000 r = true) :=
  ⟨⟨head, 601, 4, 101, st, by decide⟩, ⟨some 1000, st, by decide⟩⟩

theorem witness_ControlSecondSetsScrew :
    ∃ (d : Nat) (s : State), s.running = true ∧ s.clock.controlDue = some d ∧ s.erector.seq ≠ .awaitingPress :=
  ⟨6000, st, by decide⟩

theorem witness_ControlSecondKeepsAccounts :
    (∃ (d : Nat) (s : State), s.running = true ∧ s.clock.controlDue = some d ∧ s.erector.seq ≠ .awaitingPress ∧
      s.records.current.advanceSeconds ≤ 65535 ∧ s.records.current.buildSeconds ≤ 65535) ∧ (∃ (d : Nat) (s : State),
      s.running = true ∧ s.clock.controlDue = some d ∧ s.erector.seq ≠ .awaitingPress ∧ (s.grout.line = .armed ∨
      s.grout.line = .injecting)) ∧ (∃ (s : State), s.clock.controlDue = none) :=
  ⟨⟨6000, { st with records.current.advanceSeconds := 65535 }, by decide⟩, ⟨6000,
    { st with grout.line := .injecting }, by decide⟩, ⟨State.reset, by decide⟩⟩

theorem witness_TrainInAndOut :
    (∃ (h : CmdHead) (n : Nat) (c : Nat) (s : State), 1 ≤ n ∧ n ≤ 8 ∧ c < 65536 ∧ s.life = .ready ∧ s.cfg.roles.screw
      = true ∧ s.train.cars ≠ []) ∧ (∃ (h : CmdHead) (n : Nat) (c : Nat) (s : State), 1 ≤ n ∧ n ≤ 8 ∧ c < 65536 ∧
      s.life = .ready ∧ s.cfg.roles.screw = true ∧ s.train.cars = []) ∧ (∃ (h : CmdHead) (s : State), s.life = .ready
      ∧ s.cfg.roles.screw = true) :=
  ⟨⟨head, 8, 20000, { st with train.cars := [fullCar] }, by decide⟩, ⟨head, 1, 40001, st, by decide⟩, ⟨head, st, by
    decide⟩⟩

theorem witness_PaceLevelsSet :
    ∃ (h : CmdHead) (a : Nat) (b : Nat) (c : Nat) (s : State), a < 16777216 ∧ b < 16777216 ∧ c < 256 ∧ s.life =
      .ready ∧ s.cfg.roles.screw = true :=
  ⟨head, 200001, 0, 4, st, by decide⟩

theorem witness_PulsesCounted :
    (∃ (before : List Car) (after : List Car) (c : Car) (s : State), s.running = true ∧ s.cfg.roles.screw = true ∧
      s.train.cars = before ++ c :: after ∧ before.all (fun x => x.state ≠ .filling) = true ∧ c.state = .filling ∧
      s.train.mass + s.cfg.beltScale ≤ 9999999 ∧ c.filled + s.cfg.beltScale < c.capacity) ∧ (∃ (before : List Car)
      (after : List Car) (c : Car) (s : State), s.running = true ∧ s.cfg.roles.screw = true ∧ s.train.cars = before
      ++ c :: after ∧ before.all (fun x => x.state ≠ .filling) = true ∧ c.state = .filling ∧ s.train.mass +
      s.cfg.beltScale ≤ 9999999 ∧ c.capacity ≤ c.filled + s.cfg.beltScale ∧ after.all (fun x => x.state = .waiting) =
      true) ∧ (∃ (s : State), s.running = true ∧ s.cfg.roles.screw = true ∧ s.train.cars.all (fun x => x.state ≠
      .filling) = true ∧ s.train.mass + s.cfg.beltScale ≤ 9999999) ∧ (∃ (s : State), s.running = true ∧
      s.cfg.roles.screw = true ∧ 9999999 < s.train.mass + s.cfg.beltScale) ∧ (∃ (p : SpoilPart) (s : State),
      s.running = true ∧ s.cfg.roles.screw = true ∧ s.records.current.spoil = some p ∧ s.erector.seq ≠
      .awaitingPress) ∧ (∃ (p : SpoilPart) (s : State), s.running = true ∧ s.cfg.roles.screw = true ∧
      s.records.current.spoil = some p ∧ s.erector.seq ≠ .awaitingPress) ∧ (∃ (s : State), s.running = true ∧
      s.cfg.roles.screw = true) ∧ (∃ (t0 : Nat) (s : State), s.running = true ∧ s.screw.beltStart = some t0) ∧ (∃ (s
      : State), s.screw.beltStart = none) :=
  ⟨⟨[fullCar], [], { fullCar with state := .filling, filled := 989 },
    { st with train.cars := [fullCar, { fullCar with state := .filling, filled := 989 }] }, by decide⟩, ⟨[fullCar],
    [], { fullCar with state := .filling, filled := 990 },
    { st with train.cars := [fullCar, { fullCar with state := .filling, filled := 990 }] }, by decide⟩,
    ⟨{ st with train.mass := 9999989 }, by decide⟩, ⟨{ st with train.mass := 9999990 }, by decide⟩,
    ⟨{ SpoilPart.fresh with belt := 9999990 },
    { st with records.current.spoil := some { SpoilPart.fresh with belt := 9999990 } }, by decide⟩, ⟨SpoilPart.fresh,
    st, by decide⟩, ⟨st, by decide⟩, ⟨4000, { st with screw.beltStart := some 4000 }, by decide⟩, ⟨st, by decide⟩⟩

theorem witness_PendingSettingsDeferred :
    (∃ (h : CmdHead) (o : Nat) (c : Nat) (r : Nat) (l : Nat) (s : State), o < 65536 ∧ c < 65536 ∧ r < 65536 ∧ l <
      65536 ∧ s.life = .ready ∧ s.cfg.roles.line = true) ∧ (∃ (h : CmdHead) (lo : Nat) (up : Nat) (s : State), lo <
      65536 ∧ up < 65536 ∧ s.life = .ready ∧ s.cfg.roles.screw = true) ∧ (∃ (h : CmdHead) (o : Nat) (c : Nat) (r :
      Nat) (l : Nat) (s : State), s.life = .ready ∧ s.cfg.roles.line = false) ∧ (∃ (h : CmdHead) (lo : Nat) (up :
      Nat) (s : State), s.life = .ready ∧ s.cfg.roles.screw = false) :=
  ⟨⟨head, 14001, 14000, 999, 801, st, by decide⟩, ⟨head, 1000, 999, st, by decide⟩, ⟨head, 0, 0, 0, 0,
    { st with cfg.roles.line := false }, by decide⟩, ⟨head, 0, 0, { st with cfg.roles.screw := false }, by decide⟩⟩

theorem witness_LineCommandsFollowTables :
    (∃ (h : CmdHead) (s : State), s.life = .ready ∧ s.cfg.roles.line = true ∧ s.grout.line = .closed) ∧ (∃ (h :
      CmdHead) (s : State), s.life = .ready ∧ s.cfg.roles.line = true ∧ s.grout.line = .tripped ∧ s.grout.setting =
      false ∧ s.inputs.linePressure < s.grout.active.limit) ∧ (∃ (h : CmdHead) (s : State), s.life = .ready ∧
      s.cfg.roles.line = true ∧ (s.grout.line = .armed ∨ s.grout.line = .injecting)) ∧ (∃ (h : CmdHead) (s : State),
      s.life = .ready ∧ s.cfg.roles.line = true ∧ (s.grout.line = .flushing ∨ (s.grout.line = .tripped ∧
      (s.grout.setting = true ∨ s.grout.active.limit ≤ s.inputs.linePressure)))) ∧ (∃ (h : CmdHead) (s : State),
      s.life = .ready ∧ s.cfg.roles.line = true ∧ (s.grout.line = .armed ∨ s.grout.line = .injecting)) ∧ (∃ (h :
      CmdHead) (s : State), s.life = .ready ∧ s.cfg.roles.line = true ∧ s.grout.line = .closed) ∧ (∃ (h : CmdHead) (s
      : State), s.life = .ready ∧ s.cfg.roles.line = true ∧ (s.grout.line = .flushing ∨ s.grout.line = .tripped)) ∧
      (∃ (h : CmdHead) (s : State), s.life = .ready ∧ s.cfg.roles.line = true ∧ (s.grout.line = .closed ∨
      s.grout.line = .armed ∨ (s.grout.line = .tripped ∧ s.inputs.linePressure < s.grout.active.limit))) ∧ (∃ (h :
      CmdHead) (s : State), s.life = .ready ∧ s.cfg.roles.line = true ∧ (s.grout.line = .injecting ∨ s.grout.line =
      .flushing ∨ (s.grout.line = .tripped ∧ s.grout.active.limit ≤ s.inputs.linePressure))) :=
  ⟨⟨head, st, by decide⟩, ⟨head, { st with grout.line := .tripped, inputs.linePressure := 349 }, by decide⟩, ⟨head,
    { st with grout.line := .injecting }, by decide⟩, ⟨head,
    { st with grout.line := .tripped, inputs.linePressure := 350 }, by decide⟩, ⟨head,
    { st with grout.line := .armed }, by decide⟩, ⟨head, st, by decide⟩, ⟨head, { st with grout.line := .flushing },
    by decide⟩, ⟨head, { st with grout.line := .tripped, inputs.linePressure := 349 }, by decide⟩, ⟨head,
    { st with grout.line := .tripped, inputs.linePressure := 350 }, by decide⟩⟩

theorem witness_GroutTimesAndMinimumSet :
    (∃ (h : CmdHead) (p : Nat) (f : Nat) (s : State), p < 65536 ∧ f < 65536 ∧ s.life = .ready ∧ s.cfg.roles.line =
      true ∧ (∀ t0, s.grout.potStart = some t0 → s.clock.now < t0 + max 300 (min p 7200) * 1000) ∧ (∀ t0,
      s.grout.flushStart = some t0 → s.clock.now < t0 + max 10 (min f 600) * 1000)) ∧ (∃ (h : CmdHead) (p : Nat) (f :
      Nat) (t0 : Nat) (s : State), p < 65536 ∧ f < 65536 ∧ s.life = .ready ∧ s.cfg.roles.line = true ∧ (s.grout.line
      = .armed ∨ s.grout.line = .injecting) ∧ s.grout.potStart = some t0 ∧ s.grout.flushStart = none ∧ t0 + max 300
      (min p 7200) * 1000 ≤ s.clock.now) ∧ (∃ (h : CmdHead) (p : Nat) (f : Nat) (t0 : Nat) (s : State), p < 65536 ∧ f
      < 65536 ∧ s.life = .ready ∧ s.cfg.roles.line = true ∧ s.grout.line = .tripped ∧ s.grout.potStart = some t0 ∧
      s.grout.flushStart = none ∧ t0 + max 300 (min p 7200) * 1000 ≤ s.clock.now) ∧ (∃ (h : CmdHead) (p : Nat) (f :
      Nat) (t0 : Nat) (s : State), p < 65536 ∧ f < 65536 ∧ s.life = .ready ∧ s.cfg.roles.line = true ∧
      s.grout.flushStart = some t0 ∧ t0 + max 10 (min f 600) * 1000 ≤ s.clock.now) ∧ (∃ (i : Instr) (s : State), (i =
      .powerOnReset ∨ i = .pinReset)) ∧ (∃ (h : CmdHead) (s : State), h.source = .service ∧ s.life ≠ .starting) ∧ (∃
      (h : CmdHead) (g : Nat) (s : State), g < 256 ∧ s.life = .ready) :=
  ⟨⟨head, 299, 9, st, by decide, by decide, by decide, by decide, nofun, nofun⟩, ⟨head, 300, 10, 4000,
    { st with grout.line := .armed, grout.potStart := some 4000, clock.now := 304000 }, by decide⟩, ⟨head, 300, 10,
    4000, { st with grout.line := .tripped, grout.potStart := some 4000, clock.now := 304000 }, by decide⟩, ⟨head,
    300, 10, 4000, { st with grout.line := .flushing, grout.flushStart := some 4000, clock.now := 14000 }, by
    decide⟩, ⟨.powerOnReset, st, .inl rfl⟩, ⟨{ head with source := .service }, st, by decide⟩, ⟨head, 255, st, by
    decide⟩⟩

theorem witness_LineEventsAndTimers :
    (∃ (r : Reading) (s : State), s.running = true ∧ readingFits 1000 r = true ∧ (s.grout.line = .armed ∨
      s.grout.line = .injecting) ∧ s.grout.active.limit < r.getD 1000) ∧ (∃ (r : Reading) (s : State), s.running =
      true ∧ readingFits 1000 r = true ∧ ((s.grout.line ≠ .armed ∧ s.grout.line ≠ .injecting) ∨ r.getD 1000 ≤
      s.grout.active.limit)) ∧ (∃ (s : State), s.running = true ∧ s.grout.line = .injecting) ∧ (∃ (s : State),
      (s.running = false ∨ s.grout.line ≠ .injecting)) ∧ (∃ (t0 : Nat) (s : State), s.running = true ∧
      s.grout.potStart = some t0 ∧ (s.grout.line = .armed ∨ s.grout.line = .injecting)) ∧ (∃ (t0 : Nat) (s : State),
      s.running = true ∧ s.grout.potStart = some t0 ∧ s.grout.line = .tripped) ∧ (∃ (t0 : Nat) (s : State), s.running
      = true ∧ s.grout.flushStart = some t0) ∧ (∃ (s : State), s.grout.potStart = none) ∧ (∃ (s : State),
      s.grout.flushStart = none) :=
  ⟨⟨some 351, { st with grout.line := .armed }, by decide⟩, ⟨some 350, { st with grout.line := .injecting }, by
    decide⟩, ⟨{ st with grout.line := .injecting }, by decide⟩, ⟨st, by decide⟩, ⟨4000,
    { st with grout.line := .armed, grout.potStart := some 4000 }, by decide⟩, ⟨4000,
    { st with grout.line := .tripped, grout.potStart := some 4000 }, by decide⟩, ⟨4000,
    { st with grout.line := .flushing, grout.flushStart := some 4000 }, by decide⟩, ⟨st, by decide⟩, ⟨st, by decide⟩⟩

theorem witness_RecordCommandsAnswer :
    (∃ (h : CmdHead) (s : State), s.life = .ready) ∧ (∃ (h : CmdHead) (i : Nat) (r : Record) (s : State), i < 16 ∧
      s.life = .ready ∧ s.records.history.reverse[i]? = some r) ∧ (∃ (h : CmdHead) (i : Nat) (s : State), i < 16 ∧
      s.life = .ready ∧ s.records.history.length ≤ i) ∧ (∃ (h : CmdHead) (s : State), h.source = .service ∧ s.life =
      .ready) ∧ (∃ (h : CmdHead) (n : Nat) (s : State), h.source = .service ∧ n < 65536 ∧ s.life = .ready ∧
      s.build.state ≠ .ringOpen) ∧ (∃ (h : CmdHead) (n : Nat) (s : State), h.source = .service ∧ n < 65536 ∧ s.life =
      .ready ∧ s.build.state = .ringOpen) :=
  ⟨⟨head, st, by decide⟩, ⟨head, 0, Record.fresh Roles.none 411 .close,
    { st with records.history := [Record.fresh Roles.none 411 .close] }, by decide⟩, ⟨head, 15, st, by decide⟩,
    ⟨{ head with source := .service }, st, by decide⟩, ⟨{ head with source := .service }, 65535,
    { st with build.state := .building }, by decide⟩, ⟨{ head with source := .service }, 65535, st, by decide⟩⟩

theorem witness_OffersBeginAndFail :
    (∃ (x : QueueItem) (rest : List QueueItem) (s : State), s.life ≠ .starting ∧ s.bus.offer = none ∧ s.bus.queue = x
      :: rest ∧ ((x.notice = .state → s.own < s.cfg.n ∧ s.bus.lastSource.getD 0 < s.cfg.n))) ∧ (∃ (s : State),
      (s.life = .starting ∨ s.bus.offer ≠ none ∨ s.bus.queue = [])) ∧ (∃ (x : QueueItem) (rest : List QueueItem) (s :
      State), s.bus.offer ≠ none ∧ s.bus.queue = x :: rest ∧ x.offering = true) ∧ (∃ (s : State), s.running = true ∧
      s.bus.offer ≠ none) ∧ (∃ (x : QueueItem) (rest : List QueueItem) (s : State), s.life = .configFault ∧
      s.bus.offer ≠ none ∧ s.bus.queue = x :: rest ∧ x.offering = true) ∧ (∃ (s : State), s.bus.offer = none) :=
  ⟨⟨{ notice := .state, offering := false }, [], { st with bus.queue := [{ notice := .state, offering := false }] },
    by decide⟩, ⟨st, by decide⟩, ⟨{ notice := .state, offering := true }, [],
    { st with bus.queue := [{ notice := .state, offering := true }], bus.offer := some offered }, by decide⟩,
    ⟨{ st with bus.queue := [{ notice := .state, offering := true }], bus.offer := some offered }, by decide⟩,
    ⟨{ notice := .state, offering := true }, [],
    { st with life := .configFault, bus.queue := [{ notice := .state, offering := true }], bus.offer := some offered },
    by decide⟩, ⟨st, by decide⟩⟩

theorem witness_OfferCompletionHandedOn :
    (∃ (s : State), s.running = true ∧ s.bus.offer ≠ none) ∧ (∃ (s : State), s.life = .configFault ∧ s.view.blind =
      false ∧ s.bus.offer ≠ none ∧ offeredNotice s.bus.queue ≠ some .state) ∧ (∃ (s : State), s.bus.offer = none) :=
  ⟨⟨{ st with bus.queue := [{ notice := .state, offering := true }], bus.offer := some offered }, by decide⟩,
    ⟨{ st with life := .configFault, bus.offer := some offered }, by decide⟩, ⟨st, by decide⟩⟩

theorem witness_LineFaultMakesBlind :
    (∃ (by_ : FaultOccasion) (s : State), s.life = .ready ∧ s.bus.faults = 15 ∧ s.bus.lineFault = false ∧ ((by_ =
      .failedOffer → s.bus.offer ≠ none))) ∧ (∃ (isState : Bool) (s : State), s.running = true ∧ s.own < s.cfg.n ∧
      s.bus.faults < 15) ∧ (∃ (by_ : FaultOccasion) (s : State), s.life = .listening ∧ s.bus.faults = 15 ∧
      s.bus.lineFault = false ∧ ((by_ = .failedOffer → s.bus.offer ≠ none))) ∧ (∃ (s : State), s.bus.faults = 15 ∧
      s.bus.lineFault = false) ∧ (∃ (by_ : FaultOccasion) (s : State), (s.bus.faults ≠ 15 ∨ s.bus.lineFault = true))
      ∧ (∃ (isState : Bool) (s : State), s.running = false) :=
  ⟨⟨.foreignNotice true, { st with bus.faults := 15 }, by decide⟩, ⟨true, { st with bus.faults := 14 }, by decide⟩,
    ⟨.failedOffer,
    { st with life := .listening, bus.queue := [{ notice := .state, offering := true }], bus.offer := some offered, bus.faults := 15 },
    by decide⟩, ⟨{ st with bus.faults := 15 }, by decide⟩, ⟨.failedOffer, { st with bus.faults := 14 }, by decide⟩,
    ⟨true, State.reset, by decide⟩⟩

theorem witness_ListeningEndsInReady :
    (∃ (d : Nat) (s : State), s.life = .listening ∧ s.clock.noticeDue = some d ∧ s.probe = true ∧ s.cfg.k ≤ s.listen
      ∧ s.listen ≤ s.cfg.k + 1) ∧ (∃ (s : State), s.life = .listening ∧ s.bus.offer ≠ none ∧ s.listen = s.cfg.k + 1)
      :=
  ⟨⟨5050, { st with life := .listening, listen := 3, probe := true }, by decide⟩,
    ⟨{ st with life := .listening, listen := 4, bus.queue := [{ notice := .state, offering := true }], bus.offer := some offered },
    by decide⟩⟩

theorem witness_DiscardedNoticesChangeNothing :
    ∃ (n : RxNotice) (s : State), (s.life = .starting ∨ n.complete = false ∨ n.body.length ≠ n.len.toNat ∨
      n.check.toNat ≠ checkWord (frameBits (rxFrame n)) ∨ (7 < n.source.toNat ∧ n.source.toNat ≠ 14 ∧ n.source.toNat
      ≠ 15) ∨ 5 < n.kind.toNat ∨ (n.kind.toNat = 0 ∧ (n.len.toNat ≠ 32 ∨ n.cls.toNat ≠ 2 ∨ 7 < n.source.toNat)) ∨
      (n.kind.toNat = 1 ∧ (n.len.toNat ≠ 1 ∨ n.cls.toNat ≠ 0 ∨ n.rank.toNat ≠ 0 ∨ n.source.toNat = 15)) ∨
      (n.kind.toNat = 2 ∧ (n.len.toNat ≠ 1 ∨ n.cls.toNat ≠ 1 ∨ n.rank.toNat ≠ 0 ∨ 7 < n.source.toNat)) ∨
      (n.kind.toNat = 3 ∧ (n.len.toNat ≠ 4 ∨ n.cls.toNat ≠ 1 ∨ n.rank.toNat ≠ 0 ∨ 7 < n.source.toNat)) ∨
      (n.kind.toNat = 4 ∧ (n.len.toNat < 2 ∨ 32 < n.len.toNat ∨ n.cls.toNat ≠ 1 ∨ n.rank.toNat ≠ 0 ∨ n.source.toNat ≤
      7 ∨ (n.dest.toNat ≠ s.own ∧ n.dest.toNat ≠ 8))) ∨ (n.kind.toNat = 1 ∧ 2 < (n.body.getD 0 0).toNat) ∨
      (n.kind.toNat = 2 ∧ 2 < (n.body.getD 0 0).toNat) ∨ (n.kind.toNat = 3 ∧ 3 < (n.body.getD 0 0).toNat) ∨
      (n.kind.toNat = 0 ∧ (8 < (n.body.getD 3 0).toNat / 4 % 16 ∨ 2 < (n.body.getD 3 0).toNat / 64 ∨ 5 < (n.body.getD
      4 0).toNat / 32 ∨ 2 < (n.body.getD 4 0).toNat / 8 % 4 ∨ 5 < (n.body.getD 9 0).toNat / 32 ∨ 5 < (n.body.getD 9
      0).toNat / 4 % 8 ∨ ((n.body.getD 0 0).toNat % 8 = 0 ∧ 4 < (n.body.getD 26 0).toNat / 32) ∨ ((n.body.getD 0
      0).toNat % 8 = 1 ∧ 1 < (n.body.getD 28 0).toNat) ∨ ((n.body.getD 0 0).toNat % 8 = 4 ∧ 2 < (n.body.getD 23
      0).toNat / 64) ∨ ((n.body.getD 0 0).toNat % 8 = 5 ∧ 2 < (n.body.getD 24 0).toNat / 64))) ∨ (n.kind.toNat = 5 ∧
      (n.len.toNat < 3 ∨ 32 < n.len.toNat ∨ n.cls.toNat ≠ 1 ∨ n.rank.toNat ≠ 0 ∨ 7 < n.source.toNat ∨ n.source.toNat
      ≠ s.own))) :=
  ⟨{ cls := 0, rank := 0, source := 7, dest := 8, kind := 1, len := 1, body := [0], check := 0, complete := false },
    st, .inr (.inl rfl)⟩

/-! ### Every invariant holds at a station that steps -/

theorem witness_QueueInOrder : ∃ s t, TimersFollowLife s ∧ QueueInOrder s ∧ step s = .next t :=
  ⟨busy, _, by unfold TimersFollowLife; decide, by unfold QueueInOrder; decide, rfl⟩

theorem witness_WithdrawnOnlyCovered : ∃ s t, TimersFollowLife s ∧ WithdrawnOnlyCovered s ∧ step s = .next t :=
  ⟨busy, _, by unfold TimersFollowLife; decide, by unfold WithdrawnOnlyCovered; decide, rfl⟩

theorem witness_DriveFit : ∃ s t, TimersFollowLife s ∧ DriveFit s ∧ step s = .next t :=
  ⟨busy, _, by unfold TimersFollowLife; decide, by unfold DriveFit; decide, rfl⟩

theorem witness_ScrewGated : ∃ s t, TimersFollowLife s ∧ ScrewGated s ∧ step s = .next t :=
  ⟨busy, _, by unfold TimersFollowLife; decide, by unfold ScrewGated; decide, rfl⟩

theorem witness_ScrewChosen : ∃ s t, TimersFollowLife s ∧ ScrewChosen s ∧ step s = .next t :=
  ⟨busy, _, by unfold TimersFollowLife; decide, by unfold ScrewChosen; decide, rfl⟩

theorem witness_PaceFollows : ∃ s t, TimersFollowLife s ∧ PaceFollows s ∧ step s = .next t :=
  ⟨busy, _, by unfold TimersFollowLife; decide, by unfold PaceFollows; decide, rfl⟩

theorem witness_HoldsFollow : ∃ s t, TimersFollowLife s ∧ HoldsFollow s ∧ step s = .next t :=
  ⟨busy, _, by unfold TimersFollowLife; decide, by unfold HoldsFollow; decide, rfl⟩

theorem witness_InjectsInAdvance : ∃ s t, TimersFollowLife s ∧ InjectsInAdvance s ∧ step s = .next t :=
  ⟨busy, _, by unfold TimersFollowLife; decide, by unfold InjectsInAdvance; decide, rfl⟩

theorem witness_OutputsFollow : ∃ s t, TimersFollowLife s ∧ OutputsFollow s ∧ step s = .next t :=
  ⟨busy, _, by unfold TimersFollowLife; decide, by unfold OutputsFollow; decide, rfl⟩

theorem witness_HistoryInOrder : ∃ s t, TimersFollowLife s ∧ HistoryInOrder s ∧ step s = .next t :=
  ⟨busy, _, by unfold TimersFollowLife; decide, by unfold HistoryInOrder; decide, rfl⟩

theorem witness_OwnTripsKnown : ∃ s t, TimersFollowLife s ∧ OwnTripsKnown s ∧ step s = .next t :=
  ⟨busy, _, by unfold TimersFollowLife; decide, by unfold OwnTripsKnown; decide, rfl⟩

theorem witness_BlindInReady : ∃ s t, TimersFollowLife s ∧ BlindInReady s ∧ step s = .next t :=
  ⟨busy, _, by unfold TimersFollowLife; decide, by unfold BlindInReady; decide, rfl⟩

theorem witness_TrainBalanced : ∃ s t, TimersFollowLife s ∧ TrainBalanced s ∧ step s = .next t := by
  refine ⟨{ busy with train.cars := [fullCar, { fullCar with state := .filling, filled := 500 }], train.mass := 1500 }, _,
    by unfold TimersFollowLife; decide, ⟨by decide, ?_, by decide, by decide⟩, rfl⟩
  simp [carsInOrder, fullCar]

theorem witness_RatioBounded : ∃ s t, TimersFollowLife s ∧ RatioBounded s ∧ step s = .next t := by
  refine ⟨{ busy with records.current.spoil := some { SpoilPart.fresh with ratio := some 965, vex := 3505000 } }, _,
    by unfold TimersFollowLife; decide, fun p r hp hr => ?_, rfl⟩
  cases hp
  cases hr
  decide

theorem witness_PlanInOrder : ∃ s t, TimersFollowLife s ∧ PlanInOrder s ∧ step s = .next t := by
  refine ⟨{ busy with build.state := .building, build.entries := planAs .set, build.index := 1 }, _,
    by unfold TimersFollowLife; decide, ⟨by decide, by decide, fun j e h => ?_, by decide, by decide⟩, rfl⟩
  match j with
  | 0 => cases h; decide
  | 1 => cases h; decide
  | n + 2 => simp [planAs] at h

theorem witness_PeersInOrder : ∃ s t, TimersFollowLife s ∧ PeersInOrder s ∧ step s = .next t := by
  refine ⟨busy, _, by unfold TimersFollowLife; decide, ⟨by decide, fun a e h ha hh => ?_⟩, rfl⟩
  match a with
  | 0 => cases ha; cases hh
  | 1 | 2 | 3 | 4 | 5 | 6 | 7 => cases ha; cases hh; decide
  | n + 8 => cases ha

theorem witness_SequenceSettled : ∃ s t, TimersFollowLife s ∧ SequenceSettled s ∧ step s = .next t := by
  refine ⟨placingStation, _, by unfold TimersFollowLife; decide, fun _ _ => ⟨workAt0, placingStation_atWork, by decide, by decide⟩, rfl⟩

/-- A sequence that an event has left in STANDBY at a PENDING entry, and an event that evaluates no unit. -/
def standing : State :=
  { placingStation with
    erector.seq := .standby
    build.index := 1
    build.entries := [planEntryAs .set, keyEntry]
    pending := [.contentionLost] }

theorem witness_ErectorSequenceSettled :
    (∃ s t, step s = .next t ∧ t.cfg.roles.erector = true ∧ s.erector.seq = .standby ∧ t.erector.seq = .standby
        ∧ entryToWork t)
      ∧ ∃ s, TimersFollowLife s ∧ s.running = true ∧ s.cfg.roles.erector = true ∧ s.erector.seq = .standby
        ∧ entryToWork s :=
  ⟨⟨standing, _, rfl, by decide⟩, standing, by unfold TimersFollowLife; decide, by decide⟩

/-- A sequence that waits for a piece over two groups in CLEAR, and one that waits for the second group to be seen HOLD. -/
def waitingStation : State :=
  { placingStation with
    build.entries := plan, erector.seq := .awaitingClear, erector.queue := [], erector.feederEmpty := true
    pending := [.pieceInStrobe 3 false] }

def pressingStation : State := { placingStation with erector.seq := .awaitingPress, thrust.mode := .hold }

/-- The station that CLAIMs its entry, the one that RELEASEs it and the one that SETs it. -/
theorem witness_ErectorSequenceSettled_steps :
    (∃ t, step waitingStation = .next t ∧ waitingStation.erector.seq ≠ .placing ∧ t.erector.seq = .placing)
      ∧ (SequenceSettled placingStation
          ∧ ∃ t, exec (.stateArrival 1 body) placingStation = .next t ∧ t.erector.seq ≠ .placing ∧ t.running = true
            ∧ t.records.ring = 412 ∧ t.build.index ≤ workAt0.index)
      ∧ (SequenceSettled pressingStation
          ∧ ∃ t, exec (.stateArrival 1 body) pressingStation = .next t ∧ t.erector.seq ≠ .awaitingPress
            ∧ t.view.erectorConflict = false) := by
  refine ⟨⟨_, rfl, by decide⟩, ⟨fun _ _ => ⟨workAt0, placingStation_atWork, by decide, by decide⟩, _, rfl, by decide⟩,
    fun _ _ => ⟨workAt0, by decide, by decide, by decide⟩, _, rfl, by decide⟩

/-- A station in BUILD HOLD under a face pressure 18 kPa below its target, with the support valve open. -/
def supporting : State :=
  { settle true { st with build.state := .suspended, screw.target := some 280 } with
    screw.support := true, pending := [.driveInterval] }

theorem supporting_follows : SupportFollows supporting := fun _ _ =>
  ⟨fun _ => ⟨by decide, 280, rfl, 262, by decide, by decide⟩, fun _ _ _ _ _ _ => rfl⟩

theorem witness_SupportFollows : ∃ s t, TimersFollowLife s ∧ SupportFollows s ∧ step s = .next t :=
  ⟨supporting, _, by unfold TimersFollowLife; decide, supporting_follows, rfl⟩

/-- Within the band the valve stays as it stood. -/
theorem witness_ScrewGatedAndChosen :
    SupportFollows supporting
      ∧ ∃ t, step supporting = .next t ∧ supporting.running = true ∧ t.running = true ∧ t.cfg.roles.screw = true
        ∧ t.screw.state = .buildHold ∧ t.screw.target = some 280 ∧ controlPressure t = some 262
        ∧ 280 ≤ 262 + t.screw.band :=
  ⟨supporting_follows, _, rfl, by decide⟩

theorem witness_InjectionFollows : ∃ s t, TimersFollowLife s ∧ InjectionFollows s ∧ step s = .next t := by
  refine ⟨{ advancing with grout.line := .injecting, pending := [.beltPulse] }, _, by unfold TimersFollowLife; decide,
    fun _ => ⟨fun _ => ⟨rfl, .inr (.inl (by decide))⟩, nofun, nofun⟩, rfl⟩

/-- The invariant that is a premise of the advance mark's clause holds at a group in ADVANCE. -/
theorem witness_StrokeReadingCounted_holds : HoldsFollow advancing ∧ advancing.thrust.mode = .advance :=
  ⟨by unfold HoldsFollow; decide, rfl⟩

/-- The invariants that are premises of clauses on BEGIN BUILD, RESUME BUILD and ARM LINE hold where they are taken. -/
theorem witness_commands_settled :
    let held : State := { st with thrust.holds := holdsOf st }
    let begun : State := { held with build.entries := planAs .pending, build.planRing := 412, thrust.advance := 14000 }
    let paused : State := { begun with build.state := .suspended, thrust.holds.build := true }
    SequenceSettled begun ∧ SequenceSettled paused ∧ HoldsFollow paused ∧ SequenceSettled held ∧ HoldsFollow held := by
  refine ⟨fun _ h => absurd h (by decide), fun _ h => absurd h (by decide), ?_, fun _ h => absurd h (by decide), ?_⟩
  all_goals unfold HoldsFollow; decide

/-- The premises of the clauses on the configuration read and on a belt pulse hold at a station that takes them. -/
theorem witness_read_and_pulse : WithdrawnOnlyCovered State.reset ∧ ScrewChosen busy := by
  constructor
  · unfold WithdrawnOnlyCovered; decide
  · unfold ScrewChosen; decide

theorem witness_TimersFollowLife : ∃ s t, TimersFollowLife s ∧ step s = .next t :=
  ⟨busy, _, by unfold TimersFollowLife; decide, rfl⟩

end Sys2Proof.Tests
end

section
/-! PROOF. What the evaluation that ends an event does to the transmit queue and to a tripped group, operation by
operation, so that `evalKeeps_settle` says it once for all statements: it queues PACE and STEP notices alone (10 R157), and
it neither trips a group nor re-arms one (02 R29, R30). -/

namespace Sys2Proof.Machine

open Sys2Proof

/-- The queue of `s` is kept but for notices of the units, and the group is TRIPPED exactly if it was. -/
structure EvalKeeps (s t : State) : Prop where
  queue : QueueKept s.bus.queue t
  tripped : t.thrust.mode = .tripped ↔ s.thrust.mode = .tripped

theorem queueKept_same {q : List QueueItem} {t : State} (h : t.bus.queue = q) : QueueKept q t := by
  subst h
  exact ⟨List.filter_sublist, .inl (List.Sublist.refl _), fun _ hx => .inl hx⟩

namespace EvalKeeps

theorem same {s t : State} (hq : t.bus.queue = s.bus.queue) (hm : t.thrust.mode = s.thrust.mode) : EvalKeeps s t :=
  ⟨queueKept_same hq, by rw [hm]⟩

theorem untripped {s t : State} (hq : t.bus.queue = s.bus.queue) (hs : s.thrust.mode ≠ .tripped)
    (ht : t.thrust.mode ≠ .tripped) : EvalKeeps s t :=
  ⟨queueKept_same hq, iff_of_false ht hs⟩

theorem refl (s : State) : EvalKeeps s s := same rfl rfl

theorem trans {s t u : State} (h : EvalKeeps s t) (k : EvalKeeps t u) : EvalKeeps s u :=
  ⟨h.queue.trans k.queue, k.tripped.trans h.tripped⟩

/-- A change before the operation that leaves queue and mode alone. -/
theorem after_same {s s' t : State} (h : EvalKeeps s' t) (hq : s'.bus.queue = s.bus.queue)
    (hm : s'.thrust.mode = s.thrust.mode) : EvalKeeps s t :=
  (same hq hm).trans h

end EvalKeeps

/-! ### Drive, screw, train and thrust unit -/

theorem evalKeeps_enqueue {n : TxNotice} (h : isUnitNotice n = true) (s : State) : EvalKeeps s (enqueue n s) :=
  ⟨queueKept_enqueue h s, Iff.rfl⟩

theorem evalKeeps_driveEval (s : State) : EvalKeeps s (driveEval s) := by
  unfold driveEval
  split
  · exact .same rfl rfl
  · exact .refl s

theorem evalKeeps_screwEval (s : State) : EvalKeeps s (screwEval s) := by
  have blind : EvalKeeps s (pressureBlindEval s) := by
    unfold pressureBlindEval; dsimp only
    split
    · exact .same rfl rfl
    · exact .same rfl rfl
  have chosen : ∀ x t, EvalKeeps t (setScrew x t) := by
    intro x t; unfold setScrew
    split
    · exact .refl t
    · exact .same rfl rfl
  unfold screwEval
  split
  · exact (blind.trans (chosen _ _)).trans (.same rfl rfl)
  · exact .refl s

/-- A change of pace queues the PACE notice (07 R118). -/
theorem evalKeeps_setPace (p : Pace) (s : State) : EvalKeeps s (setPace p s) := by
  have queued : EvalKeeps s (enqueue (.pace p) { s with train := { s.train with pace := p } }) :=
    (evalKeeps_enqueue (n := .pace p) rfl { s with train := { s.train with pace := p } }).after_same rfl rfl
  unfold setPace; dsimp only
  split
  · exact .refl s
  · split
    · exact queued.trans (.same rfl rfl)
    · exact queued

theorem evalKeeps_trainEval (s : State) : EvalKeeps s (trainEval s) := by
  unfold trainEval
  split
  · exact (evalKeeps_setPace _ _).after_same rfl rfl
  · exact .refl s

/-- HOLD and ADVANCE change places; no other mode is touched (02 R25). -/
theorem evalKeeps_advanceEval (s : State) : EvalKeeps s (advanceEval s) := by
  unfold advanceEval
  split
  · next h =>
    split
    · exact .untripped rfl (by simp [h]) (by simp)
    · exact .refl s
  · next h =>
    split
    · exact .refl s
    · exact .untripped rfl (by simp [h]) (by simp)
  · exact .refl s

theorem evalKeeps_unitsEval (lim : Bool) (s : State) : EvalKeeps s (unitsEval lim s) := by
  have paced : EvalKeeps s (trainEval (screwEval (driveEval s))) :=
    ((evalKeeps_driveEval s).trans (evalKeeps_screwEval _)).trans (evalKeeps_trainEval _)
  have limited : ∀ t, EvalKeeps t (if lim then limitEval t else t) := by
    intro t
    cases lim
    · exact .refl t
    · exact .same rfl rfl
  have held : ∀ t, EvalKeeps t (holdsEval t) := fun t => .same rfl rfl
  exact (paced.trans (limited _)).trans ((held _).trans (evalKeeps_advanceEval _))

theorem evalKeeps_injectionEval (s : State) : EvalKeeps s (injectionEval s) := by
  have tail : EvalKeeps s (tailEval s) := by
    unfold tailEval
    split
    · split
      · exact .same rfl rfl
      · exact .refl s
    · exact .refl s
  have line : ∀ l, EvalKeeps s (setLine l (tailEval s)) := fun l => tail.trans (.same rfl rfl)
  unfold injectionEval; dsimp only
  split
  · split
    · exact line .injecting
    · exact tail
  · split
    · exact tail
    · exact line .armed
  · exact tail

/-! ### Requests to the thrust group and the build -/

theorem evalKeeps_pressRequest (s : State) : EvalKeeps s (pressRequest s) := by
  have press (h : s.thrust.mode ≠ .tripped) :
      EvalKeeps s
        (if s.cfg.pressForce ≤ s.inputs.force then setMode .hold (setMode .pressing s) else setMode .pressing s) := by
    split
    · exact .untripped rfl h (by simp)
    · exact .untripped rfl h (by simp)
  unfold pressRequest
  split
  · next h => exact press (by simp [h])
  · next h => exact press (by simp [h])
  · next h => exact press (by simp [h])
  · exact .refl s

theorem evalKeeps_pressIfWithdrawn (s : State) : EvalKeeps s (pressIfWithdrawn s) := by
  unfold pressIfWithdrawn
  split
  · exact evalKeeps_pressRequest s
  · exact .refl s

theorem evalKeeps_decideRetract (s : State) : EvalKeeps s (decideRetract s) := by
  rcases decideRetract_cases s with h | ⟨_, _, _, hold, _, _, _, _, h⟩
  · rw [h]; exact .refl s
  · rw [h]
    refine .untripped rfl (by simp [hold]) ?_
    rw [setMode_thrust_mode]
    split <;> simp

theorem evalKeeps_abortWithdrawal (s : State) : EvalKeeps s (abortWithdrawal s) :=
  (evalKeeps_pressRequest s).trans (.same rfl rfl)

theorem evalKeeps_suspendBuild (s : State) : EvalKeeps s (suspendBuild s) := by
  rcases suspendBuild_cases s with ⟨_, h⟩ | ⟨_, p, hp, h⟩
  · rw [h]; exact .refl s
  · rw [h]
    have pressed : EvalKeeps s p := by
      rcases hp with rfl | rfl
      · exact .refl _
      · exact evalKeeps_pressIfWithdrawn s
    exact pressed.trans (.same rfl rfl)

/-! ### Ring close and STEP notices -/

theorem evalKeeps_judgeLinePressure (s : State) : EvalKeeps s (judgeLinePressure s) := by
  unfold judgeLinePressure
  split
  · exact .same rfl rfl
  · exact .refl s

theorem evalKeeps_updateRingAdvance (s : State) : EvalKeeps s (updateRingAdvance s) := by
  unfold updateRingAdvance
  split
  · exact .same rfl rfl
  · exact .refl s

theorem evalKeeps_closeRing (r : Nat) (c : OpeningCause) (s : State) : EvalKeeps s (closeRing r c s) := by
  have stored : ∀ t, EvalKeeps t (openUnits (groutSettingsAtClose (storeAndOpen r c (syncRecord
      (fixEntriesSet (groutTotals (accountSpoil t))))))) := fun t => .same rfl rfl
  have opened := (evalKeeps_updateRingAdvance s).trans (stored _)
  have judged : ∀ t, EvalKeeps t (judgeOver false t) := fun t => .same rfl rfl
  exact ((opened.trans (judged _)).trans (evalKeeps_unitsEval false _)).trans
    ((evalKeeps_injectionEval _).trans (evalKeeps_judgeLinePressure _))

theorem evalKeeps_pressPassed (s : State) : EvalKeeps s (pressPassed s) := by
  rcases pressPassed_cases s with h | ⟨_, _, _, _, h⟩
  · rw [h]; exact .refl s
  · rw [h]; exact .same rfl rfl

theorem evalKeeps_sequencePassed (s : State) : EvalKeeps s (sequencePassed s) := by
  rcases sequencePassed_cases s with h | ⟨_, _, _, _, h⟩
  · rw [h]; exact .refl s
  · rw [h]; exact .same rfl rfl

theorem evalKeeps_judgeEmpty (s : State) : EvalKeeps s (judgeEmpty s) := by
  unfold judgeEmpty
  split
  · exact (evalKeeps_suspendBuild (raiseMismatch s)).after_same rfl rfl
  · exact .refl s

theorem evalKeeps_catchUp (j : Nat) (s : State) : EvalKeeps s (catchUp j s) := by
  have moved : EvalKeeps s (pressPassed (moveIndex j s)) := (evalKeeps_pressPassed _).after_same rfl rfl
  have flagged : ∀ f t, EvalKeeps t (onBuildPart f t) := fun _ _ => .same rfl rfl
  exact (moved.trans (flagged _ _)).trans ((evalKeeps_pressIfWithdrawn _).trans (evalKeeps_judgeEmpty _))

theorem evalKeeps_setEntry (e : PlanEntry) (s : State) : EvalKeeps s (setEntry e s) := by
  have moved : EvalKeeps s (moveIndex (s.build.index + 1) s) := .same rfl rfl
  unfold setEntry; dsimp only
  split
  · exact (moved.trans (evalKeeps_sequencePassed _)).trans
      ((evalKeeps_pressIfWithdrawn _).trans (evalKeeps_closeRing _ _ _))
  · exact (moved.trans (evalKeeps_pressPassed _)).trans ((evalKeeps_pressIfWithdrawn _).trans (evalKeeps_judgeEmpty _))

theorem evalKeeps_releaseEntry (s : State) : EvalKeeps s (releaseEntry s) := by
  have pending : EvalKeeps s (setEntryState .pending s) := .same rfl rfl
  unfold releaseEntry; dsimp only
  split
  · split
    · exact pending.trans (evalKeeps_pressRequest _)
    · split
      · exact pending
      · exact pending.trans (evalKeeps_abortWithdrawal _)
  · exact pending

theorem evalKeeps_placeEntry (s : State) : EvalKeeps s (placeEntry s) := by
  have placed : EvalKeeps s (setEntryState .placed s) := .same rfl rfl
  unfold placeEntry; dsimp only
  split
  · exact placed.trans (evalKeeps_pressIfWithdrawn _)
  · exact placed

theorem evalKeeps_applyAction (a : StepAction) (s : State) : EvalKeeps s (applyAction a s) := by
  unfold applyAction
  split
  · exact .refl s
  · split
    · exact evalKeeps_setEntry _ s
    · exact .same rfl rfl
    · exact .same rfl rfl
    · exact evalKeeps_releaseEntry s
    · exact evalKeeps_releaseEntry s
    · exact evalKeeps_placeEntry s
    · exact evalKeeps_placeEntry s
    · exact evalKeeps_placeEntry s
    · exact .refl s

theorem evalKeeps_judgeStep (a : StepAction) (r i : Nat) (s : State) : EvalKeeps s (judgeStep a r i s) := by
  have mismatch : EvalKeeps s (raiseMismatch s) := .same rfl rfl
  unfold judgeStep
  repeat' split
  · exact .refl s
  · exact .refl s
  · exact mismatch
  · exact mismatch
  · exact .refl s
  · exact evalKeeps_applyAction a s
  · exact (evalKeeps_catchUp i s).trans (evalKeeps_applyAction a _)

theorem evalKeeps_takeStep (a : StepAction) (r i : Nat) (s : State) : EvalKeeps s (takeStep a r i s) :=
  (evalKeeps_judgeStep a r i s).trans (evalKeeps_decideRetract _)

/-! ### The erector sequence and the end of an event -/

/-- A STEP of the own erector unit queues the STEP notice (04 R75). -/
theorem evalKeeps_issueStep (a : StepAction) (w : Working) (s : State) : EvalKeeps s (issueStep a w s) :=
  (evalKeeps_enqueue rfl s).trans (evalKeeps_takeStep a w.ring w.index _)

theorem evalKeeps_setSeq (q : SeqState) (s : State) : EvalKeeps s (setSeq q s) := .same rfl rfl

theorem evalKeeps_setSeq_issueStep (q : SeqState) (a : StepAction) (w : Working) (s : State) :
    EvalKeeps s (issueStep a w (setSeq q s)) :=
  (evalKeeps_setSeq q s).trans (evalKeeps_issueStep a w _)

theorem evalKeeps_leaveStandby (s : State) : EvalKeeps s (leaveStandby s) := by
  unfold leaveStandby
  repeat' split
  · exact .same rfl rfl
  · exact .refl s
  · exact .refl s
  · exact .refl s

theorem evalKeeps_placingTest (w : Working) (s : State) : EvalKeeps s (placingTest w s) := by
  unfold placingTest
  split
  · exact .same rfl rfl
  · split
    · exact evalKeeps_setSeq_issueStep .placing .claim w s
    · exact (evalKeeps_suspendBuild _).after_same rfl rfl

theorem evalKeeps_seqStep (s : State) : EvalKeeps s (seqStep s) := by
  unfold seqStep
  split
  · exact evalKeeps_leaveStandby s
  · exact evalKeeps_setSeq .standby s
  · repeat' split
    · exact evalKeeps_setSeq .standby s
    · exact evalKeeps_placingTest _ s
    · exact .refl s
  · repeat' split
    · exact evalKeeps_setSeq_issueStep .standby .release _ s
    · exact evalKeeps_setSeq .standby s
    · exact evalKeeps_setSeq_issueStep .standby .release _ s
    · exact .refl s
    · exact evalKeeps_setSeq_issueStep .awaitingClear .release _ s
  · repeat' split
    · exact evalKeeps_setSeq .standby s
    · exact evalKeeps_setSeq_issueStep .standby .set _ s
    · exact .refl s

theorem evalKeeps_seqSteps (n : Nat) (s : State) : EvalKeeps s (seqSteps n s) := by
  induction n generalizing s with
  | zero => exact .refl s
  | succ n ih =>
    unfold seqSteps
    split
    · exact evalKeeps_seqStep s
    · exact (evalKeeps_seqStep s).trans (ih _)

theorem evalKeeps_erectorEval (s : State) : EvalKeeps s (erectorEval s) := by
  unfold erectorEval
  split
  · exact evalKeeps_seqSteps 8 s
  · exact .refl s

/-- The end of an event queues notices of the units alone, and neither trips a group nor re-arms one. -/
theorem evalKeeps_settle (lim : Bool) (s : State) : EvalKeeps s (settle lim s) := by
  have shown : ∀ t, EvalKeeps t (setOutputs (syncRecord t)) := fun t => .same rfl rfl
  unfold settle
  split
  · exact ((evalKeeps_unitsEval lim s).trans (evalKeeps_erectorEval _)).trans
      (((evalKeeps_unitsEval lim _).trans (evalKeeps_injectionEval _)).trans (shown _))
  · exact .refl s

end Sys2Proof.Machine
end

section
/-! PROOF. How a command's answer leaves the station: its REPLY in the queue (11 R164), the frame of its effect, and the
advance speed limit of an event that recomputes it (02 R36). -/

namespace Sys2Proof.Machine

open Sys2Proof

/-! ### The answer -/

/-- A REPLY finds its place, in that of a waiting STATE too, unless the queue is full (10 R159). -/
theorem sent_enqueue (h : CmdHead) (n : Nat) (r : Result) (d : List Byte) (s : State) :
    Sent h n r d (enqueue (.reply h.source n h.tag r d) s) := by
  have placed : ∀ q, ∃ x ∈ insertNotice (.reply h.source n h.tag r d) q, x.notice = .reply h.source n h.tag r d :=
    fun q => ⟨_, mem_insertNotice.2 (.inl rfl), rfl⟩
  unfold Sent
  rw [enqueue_bus_queue]
  rcases queueAfter_cases (.reply h.source n h.tag r d) s.bus.queue with ⟨q, _, e⟩ | ⟨full, e⟩
  · rw [e]; exact .inl (placed q)
  · rw [e]; exact .inr full

/-- An owner whose effect keeps the queue but for notices of the units is answered as 11 R164 gives it. -/
theorem answered_answer (h : CmdHead) (n : Nat) (r : Result) {s t : State} (kept : QueueKept s.bus.queue t) :
    Answered h n r s (answer h n { result := r, state := t }) := by
  unfold Answered
  split
  · next silent =>
    obtain ⟨broadcast, rfl⟩ : h.toAll = true ∧ r = .done := by simpa using silent
    obtain ⟨_, _, ofUnits⟩ := kept
    have none_sent : answer h n { result := .done, state := t } = t := by simp [answer, replies, broadcast]
    rw [none_sent]
    intro x hx reply
    rcases ofUnits x hx with old | ⟨_, unit⟩
    · exact old
    · cases hn : x.notice <;> simp [hn, isReply, isUnitNotice] at reply unit
  · next spoken =>
    have one_sent : answer h n { result := r, state := t } = enqueue (.reply h.source n h.tag r []) t := by
      have : replies h r false = true := by
        cases ha : h.toAll <;> simp_all [replies]
      simp [answer, this, queueReplies]
    rw [one_sent]
    exact sent_enqueue h n r [] t

/-- Queueing the REPLY is no part of what a frame is about. -/
theorem frame_answer {e : State} (h : CmdHead) (n : Nat) {a : Answer} (frame : FrameOf e a.state) :
    FrameOf e (answer h n a) := by
  obtain ⟨q, shape⟩ := answer_shape h n a
  rw [shape]
  exact frame

@[simp] theorem answer_thrust (h : CmdHead) (n : Nat) (a : Answer) : (answer h n a).thrust = a.state.thrust := by
  obtain ⟨q, shape⟩ := answer_shape h n a
  rw [shape]

@[simp] theorem answer_view (h : CmdHead) (n : Nat) (a : Answer) : (answer h n a).view = a.state.view := by
  obtain ⟨q, shape⟩ := answer_shape h n a
  rw [shape]

@[simp] theorem limitOf_answer (h : CmdHead) (n : Nat) (a : Answer) : limitOf (answer h n a) = limitOf a.state := by
  obtain ⟨q, shape⟩ := answer_shape h n a
  rw [shape]
  rfl

theorem running_of_ready {s : State} (h : s.life = .ready) : s.running = true := by simp [State.running, h]

/-! ### The advance speed limit -/

@[simp] theorem injectionEval_thrust (s : State) : (injectionEval s).thrust = s.thrust := by
  unfold injectionEval tailEval; dsimp only
  repeat' split
  all_goals rfl

@[simp] theorem limitOf_injectionEval (s : State) : limitOf (injectionEval s) = limitOf s := by
  unfold injectionEval tailEval; dsimp only
  repeat' split
  all_goals rfl

/-- HOLD and ADVANCE do not enter into the limit. -/
theorem advanceEval_vlim {s : State} (h : s.thrust.vlim = limitOf s) :
    (advanceEval s).thrust.vlim = limitOf (advanceEval s) := by
  have moded : ∀ m, (setMode m s).thrust.vlim = limitOf (setMode m s) := fun _ => h
  unfold advanceEval
  repeat' split
  · exact moded .advance
  · exact h
  · exact h
  · exact moded .hold
  · exact h

theorem unitsEval_vlim (s : State) : (unitsEval true s).thrust.vlim = limitOf (unitsEval true s) := by
  have limited : ∀ t, (holdsEval (limitEval t)).thrust.vlim = limitOf (holdsEval (limitEval t)) := fun _ => rfl
  have units : unitsEval true s = advanceEval (holdsEval (limitEval (trainEval (screwEval (driveEval s))))) := rfl
  rw [units]
  exact advanceEval_vlim (limited _)

/-- An event that recomputes v_lim leaves it at the limit on the figures it leaves (02 R36). -/
theorem settle_vlim {s : State} (h : s.running = true) :
    (settle true s).thrust.vlim = limitOf (settle true s) := by
  have shown : ∀ t, t.thrust.vlim = limitOf t →
      (setOutputs (syncRecord t)).thrust.vlim = limitOf (setOutputs (syncRecord t)) := fun _ ht => ht
  unfold settle
  rw [if_pos h]
  refine shown _ ?_
  rw [injectionEval_thrust, limitOf_injectionEval]
  exact unitsEval_vlim _

/-! ### SET ADVANCE LIMITS and RESTART -/

/-- The station with the clamped limits of a SET ADVANCE LIMITS, before the units are evaluated (02 R37). -/
def withLimits (v p : Nat) (s : State) : State :=
  { s with thrust := { s.thrust with vmax := min v 120, pmax := max 10 (min p 1000) } }

theorem setAdvanceLimits_owner (v p : Nat) (s : State) :
    setAdvanceLimitsCommand.owner [v, p] s =
      { result := clampedOr .done [(v, min v 120), (p, max 10 (min p 1000))], state := settle true (withLimits v p s) } := by
  rw [← setpointResult_eq (by simp)]
  simp [setAdvanceLimitsCommand, withLimits, clamp, arg]

/-- SET ADVANCE LIMITS in READY: both operands clamped, the units evaluated with the new limit, the answer (02 R37). -/
theorem exec_setAdvanceLimits {v p : Nat} (hv : v < 256) (hp : p < 65536) (h : CmdHead) {s : State}
    (ready : s.life = .ready) :
    exec (.setAdvanceLimits h (beBytes 1 v ++ beBytes 2 p)) s =
      .next (answer h 3
        { result := clampedOr .done [(v, min v 120), (p, max 10 (min p 1000))]
          state := settle true (withLimits v p s) }) := by
  have up : s.life ≠ .starting := by simp [ready]
  have fields : splitFields [1, 2] (beBytes 1 v ++ beBytes 2 p) = some [v, p] := by
    have hv' : v % 256 ^ 1 = v := Nat.mod_eq_of_lt (by omega)
    have hp' : p % 256 ^ 2 = p := Nat.mod_eq_of_lt (by omega)
    rw [splitFields_beBytes, splitFields_last, hv', hp']
    rfl
  have taken : takeCommand setAdvanceLimitsCommand h (beBytes 1 v ++ beBytes 2 p) s =
      answer h 3 (setAdvanceLimitsCommand.owner [v, p] s) := by
    rw [takeCommand_checks (c := setAdvanceLimitsCommand) up fields h]
    simp [setAdvanceLimitsCommand, ready]
  show Host.Outcome.next (takeCommand setAdvanceLimitsCommand h _ s) = _
  rw [taken, setAdvanceLimits_owner]

/-- RESTART from the service terminal outside STARTING is the warm reset, with no REPLY (12 R170). -/
theorem exec_restart {h : CmdHead} {s : State} (service : h.source = .service) (up : s.life ≠ .starting) :
    exec (.restart h []) s = .next (warmReset s) := by
  show Host.Outcome.next (restartCommand h [] s) = _
  simp [restartCommand, serviceOnly, service, up]

/-! ### The statement -/

/-- Settles O10: the effect is the frame with the two limits replaced, and the event ends with v_lim evaluated on them. -/
theorem advanceLimitsClampedAndUsed : Obligations.AdvanceLimitsClampedAndUsed := by
  refine ⟨fun h v p s hv hp ready => ?_, fun s => ⟨_, rfl, rfl, rfl⟩, fun s => ⟨_, rfl, rfl, rfl⟩,
    fun h s service up => ⟨_, exec_restart service up, rfl, rfl⟩⟩
  refine ⟨_, exec_setAdvanceLimits hv hp h ready, ?frame, ?answer, ?limit⟩
  case frame => exact frame_answer h 3 (settle_frame true _)
  case answer => exact answered_answer h 3 _ (evalKeeps_settle true (withLimits v p s)).queue
  case limit =>
    show _ = limitOf _
    rw [answer_thrust, limitOf_answer]
    exact settle_vlim (running_of_ready ready)

end Sys2Proof.Machine
end

section
/-! PROOF. CLEAR TRIP with unit THRUST (02 R30): what re-arming makes of the station, the mode that the evaluation of the
units gives a re-armed group in an open ring and in a build, and the frame, in which the group mode has no part. -/

namespace Sys2Proof.Machine

open Sys2Proof

/-! ### The group mode and the other units -/

theorem driveEval_setMode (m : GroupMode) (s : State) : driveEval (setMode m s) = setMode m (driveEval s) := by
  unfold driveEval
  rw [apply_ite (setMode m)]
  rfl

theorem pressureBlindEval_setMode (m : GroupMode) (s : State) :
    pressureBlindEval (setMode m s) = setMode m (pressureBlindEval s) := by
  unfold pressureBlindEval
  rw [apply_ite (setMode m)]
  rfl

theorem setScrew_setMode (x : ScrewState) (m : GroupMode) (s : State) :
    setScrew x (setMode m s) = setMode m (setScrew x s) := by
  unfold setScrew
  rw [apply_ite (setMode m)]
  rfl

theorem screwEval_setMode (m : GroupMode) (s : State) : screwEval (setMode m s) = setMode m (screwEval s) := by
  have choice : ∀ t, screwChoice (setMode m t) = screwChoice t := fun _ => rfl
  have support : ∀ t, supportEval (setMode m t) = setMode m (supportEval t) := fun _ => rfl
  unfold screwEval
  rw [setMode_cfg]
  split
  · dsimp only
    rw [pressureBlindEval_setMode, choice, setScrew_setMode, support]
  · rfl

theorem setPace_setMode (p : Pace) (m : GroupMode) (s : State) :
    setPace p (setMode m s) = setMode m (setPace p s) := by
  have limited (t : State) :
      (if spoilStation (setMode m t) = some (setMode m t).own then limitEval (setMode m t) else setMode m t)
        = setMode m (if spoilStation t = some t.own then limitEval t else t) := by
    rw [apply_ite (setMode m)]
    rfl
  by_cases h : s.train.pace = p
  · rw [setPace, setPace, if_pos h, if_pos (by exact h)]
  · rw [setPace, setPace, if_neg h, if_neg (by exact h)]
    exact limited (enqueue (.pace p) { s with train := { s.train with pace := p } })

theorem trainEval_setMode (m : GroupMode) (s : State) : trainEval (setMode m s) = setMode m (trainEval s) := by
  unfold trainEval
  rw [setMode_cfg]
  split
  · exact setPace_setMode _ m
      { s with
        train :=
          { s.train with
            reasons := { s.train.reasons with train := trainGrade s.train, noTarget := s.screw.target.isNone } } }
  · rfl

/-- A frame says nothing of the group mode, so a change of mode before the event's end is no part of it. -/
theorem frame_setMode {m : GroupMode} {e t : State} (frame : FrameOf (setMode m e) t) : FrameOf e t := by
  obtain ⟨base, ring, units⟩ := frame
  refine ⟨base, ring, fun absent => ?_⟩
  obtain ⟨plan, erector, evaluated⟩ := units absent
  refine ⟨plan, erector, fun hd => ?_⟩
  obtain ⟨drive, evaluated⟩ := evaluated (by rw [driveEval_setMode, hd])
  refine ⟨drive, fun hs => ?_⟩
  obtain ⟨screw, evaluated⟩ := evaluated (by rw [screwEval_setMode, hs])
  exact ⟨screw, fun ht => evaluated (by rw [trainEval_setMode, ht])⟩

/-! ### HOLD and ADVANCE at the end of an event -/

@[simp] theorem driveEval_thrust (s : State) : (driveEval s).thrust = s.thrust := by
  unfold driveEval
  split
  · rfl
  · rfl

@[simp] theorem driveEval_build (s : State) : (driveEval s).build = s.build := by
  unfold driveEval
  split
  · rfl
  · rfl

@[simp] theorem screwEval_thrust (s : State) : (screwEval s).thrust = s.thrust := by
  unfold screwEval setScrew pressureBlindEval; dsimp only [supportEval]
  repeat' split
  all_goals rfl

@[simp] theorem trainEval_mode (s : State) : (trainEval s).thrust.mode = s.thrust.mode := by
  unfold trainEval setPace; dsimp only
  repeat' split
  all_goals rfl

/-- The units evaluate HOLD and ADVANCE last, on the mode and the build state that the event has left. -/
theorem unitsEval_eq_advanceEval (lim : Bool) (s : State) :
    ∃ p, unitsEval lim s = advanceEval (holdsEval p) ∧ p.thrust.mode = s.thrust.mode
      ∧ p.build.state = s.build.state := by
  have state : (trainEval (screwEval (driveEval s))).build.state = s.build.state := by
    rw [(trainEval_surroundings _).build, (screwEval_surroundings _).build, driveEval_build]
  cases lim
  · exact ⟨_, rfl, by simp, state⟩
  · exact ⟨_, rfl, by simp, state⟩

/-- After its evaluation a group in HOLD or ADVANCE stands in ADVANCE exactly without a hold reason (02 R25). -/
theorem advanceEval_follows_holds {s : State} (h : s.thrust.mode = .hold ∨ s.thrust.mode = .advance) :
    (advanceEval s).thrust.mode = if holdsEmpty (advanceEval s).thrust.holds then .advance else .hold := by
  unfold advanceEval
  rcases h with h | h
  · rw [h]; dsimp only
    cases e : holdsEmpty s.thrust.holds <;> simp [e, h]
  · rw [h]; dsimp only
    cases e : holdsEmpty s.thrust.holds <;> simp [e, h]

theorem unitsEval_follows_holds (lim : Bool) {s : State} (h : s.thrust.mode = .hold ∨ s.thrust.mode = .advance) :
    (unitsEval lim s).thrust.mode = if holdsEmpty (unitsEval lim s).thrust.holds then .advance else .hold := by
  obtain ⟨p, e, mode, _⟩ := unitsEval_eq_advanceEval lim s
  rw [e]
  exact advanceEval_follows_holds (by simpa [mode] using h)

/-- In a build, where BUILD is a hold reason, the units leave a group outside ADVANCE in its mode (02 R25, R32). -/
theorem unitsEval_mode_in_build (lim : Bool) {s : State} (build : s.build.state ≠ .ringOpen)
    (mode : s.thrust.mode ≠ .advance) : (unitsEval lim s).thrust.mode = s.thrust.mode := by
  obtain ⟨p, e, pmode, pstate⟩ := unitsEval_eq_advanceEval lim s
  have held : holdsEmpty (holdsEval p).thrust.holds = false := by
    simp [holdsEmpty, holdFlags, holdsOf, pstate, build]
  rw [e, ← pmode]
  unfold advanceEval
  split
  · rw [held]; rfl
  · next h => exact absurd (pmode.symm.trans h) mode
  · rfl

theorem unitsEval_build_state (lim : Bool) (s : State) : (unitsEval lim s).build.state = s.build.state := by
  have plan : (planOf (unitsEval lim s)).state = (planOf s).state := by rw [plan_unitsEval]
  exact plan

/-! ### The erector sequence in an open ring -/

/-- In an open ring a STEP of the own erector unit is sent and has no effect of its own (03 R56). -/
theorem issueStep_ringOpen {s : State} (h : s.build.state = .ringOpen) (a : StepAction) (w : Working) :
    issueStep a w s = enqueue (.step a w.ring w.index) s := by
  have judged : ∀ t : State, t.build.state = .ringOpen → takeStep a w.ring w.index t = t := by
    intro t ht
    have step : judgeStep a w.ring w.index t = t := by rw [judgeStep, if_pos ht]
    rw [takeStep, step, decideRetract, ht]
    simp
  exact judged _ h

/-- In an open ring the erector sequence leaves thrust and build unit alone. -/
theorem seqStep_ringOpen {s : State} (h : s.build.state = .ringOpen) :
    (seqStep s).thrust = s.thrust ∧ (seqStep s).build = s.build := by
  have sent : ∀ a w q, (issueStep a w (setSeq q s)).thrust = s.thrust ∧ (issueStep a w (setSeq q s)).build = s.build := by
    intro a w q
    rw [issueStep_ringOpen (s := setSeq q s) h]
    exact ⟨rfl, rfl⟩
  have ended : ∀ w, workEnded w s = true := fun w => by simp [workEnded, h]
  unfold seqStep
  split
  · simp [leaveStandby, h]
  · exact ⟨rfl, rfl⟩
  · simp [ended]
  · repeat' split
    · exact sent _ _ _
    · exact ⟨rfl, rfl⟩
    · exact sent _ _ _
    · exact ⟨rfl, rfl⟩
    · exact sent _ _ _
  · repeat' split
    · exact ⟨rfl, rfl⟩
    · exact sent _ _ _
    · exact ⟨rfl, rfl⟩

theorem seqSteps_thrust_ringOpen (n : Nat) {s : State} (h : s.build.state = .ringOpen) :
    (seqSteps n s).thrust = s.thrust := by
  induction n generalizing s with
  | zero => rfl
  | succ n ih =>
    obtain ⟨thrust, build⟩ := seqStep_ringOpen h
    unfold seqSteps
    split
    · exact thrust
    · rw [ih (by rw [build, h]), thrust]

theorem erectorEval_thrust_ringOpen {s : State} (h : s.build.state = .ringOpen) :
    (erectorEval s).thrust = s.thrust := by
  unfold erectorEval
  split
  · exact seqSteps_thrust_ringOpen 8 h
  · rfl

/-! ### The mode at the end of an event -/

/-- The group stands as the second evaluation of the units leaves it. -/
theorem settle_thrust {s : State} (running : s.running = true) (lim : Bool) :
    (settle lim s).thrust = (unitsEval lim (erectorEval (unitsEval lim s))).thrust := by
  unfold settle
  rw [if_pos running, setOutputs_thrust, syncRecord_thrust, injectionEval_thrust]

/-- In an open ring a group in HOLD ends the event in HOLD or ADVANCE, as the hold reasons have it (02 R25). -/
theorem settle_follows_holds {s : State} (running : s.running = true) (lim : Bool)
    (ringOpen : s.build.state = .ringOpen) (hold : s.thrust.mode = .hold) :
    (settle lim s).thrust.mode = if holdsEmpty (settle lim s).thrust.holds then .advance else .hold := by
  have first := unitsEval_follows_holds lim (.inl hold)
  have again : (erectorEval (unitsEval lim s)).thrust = (unitsEval lim s).thrust :=
    erectorEval_thrust_ringOpen (by rw [unitsEval_build_state, ringOpen])
  rw [settle_thrust running]
  apply unitsEval_follows_holds
  rw [again, first]
  split
  · exact .inr rfl
  · exact .inl rfl

/-- In a build a group outside ADVANCE ends the event in its mode, at a station whose erector does nothing. -/
theorem settle_mode_in_build {s : State} (running : s.running = true) (lim : Bool)
    (absent : s.cfg.roles.erector = false) (build : s.build.state ≠ .ringOpen) (mode : s.thrust.mode ≠ .advance) :
    (settle lim s).thrust.mode = s.thrust.mode := by
  have first := unitsEval_mode_in_build lim build mode
  rw [settle_thrust running, erectorEval_absent (by simpa using absent),
    unitsEval_mode_in_build lim (by rwa [unitsEval_build_state]) (by rwa [first]), first]

/-! ### Re-arming -/

/-- The station without its own thrust trip in the trip memory (01 R16). -/
def thrustTripGone (s : State) : State :=
  { s with view := { s.view with trips := s.view.trips.filter (fun q => q ≠ (s.own, .thrust)) } }

/-- The effect of a CLEAR TRIP at a group that is re-armed, before the units are evaluated (02 R30). -/
def rearmed (s : State) : State := decideRetract (removeTrip (s.own, .thrust) (setMode .hold s))

/-- A pair that leaves the trip memory suspends no build (01 R16, 03 R46). -/
theorem removeTrip_eq (p : TripPair) (s : State) :
    removeTrip p s = { s with view := { s.view with trips := s.view.trips.filter (fun q => q ≠ p) } } := by
  rcases setTrips_cases (withoutPair p s.view.trips) s with ⟨e, _⟩ | ⟨_, empty, left⟩
  · exact e
  · simp [withoutPair, empty] at left

/-- Re-arming puts the group in HOLD; in a build with the own sector covered and the margin met the retraction decision
takes it on to RETRACTING or CLEAR (02 R30, 03 R52). -/
theorem rearmed_cases (s : State) :
    rearmed s = setMode .hold (thrustTripGone s)
      ∨ (s.build.state = .building ∧ ownCovered s = true ∧ marginMet s = true
          ∧ rearmed s =
              setMode (if s.inputs.retracted then .clear else .retracting) (setMode .hold (thrustTripGone s))) := by
  have cleared : removeTrip (s.own, .thrust) (setMode .hold s) = setMode .hold (thrustTripGone s) := removeTrip_eq _ _
  unfold rearmed
  rw [cleared]
  rcases decideRetract_cases (setMode .hold (thrustTripGone s)) with e | ⟨build, cover, _, _, _, _, _, margin, e⟩
  · exact .inl e
  · exact .inr ⟨build, cover, margin, e⟩

theorem rearmed_hold {s : State} (h : s.build.state ≠ .building) : rearmed s = setMode .hold (thrustTripGone s) := by
  rcases rearmed_cases s with e | ⟨building, _⟩
  · exact e
  · exact absurd building h

theorem rearmed_not_tripped (s : State) : (rearmed s).thrust.mode ≠ .tripped := by
  rcases rearmed_cases s with e | ⟨_, _, _, e⟩
  · rw [e]; simp
  · rw [e, setMode_thrust_mode]; split <;> simp

theorem rearmed_not_advance (s : State) : (rearmed s).thrust.mode ≠ .advance := by
  rcases rearmed_cases s with e | ⟨_, _, _, e⟩
  · rw [e]; simp
  · rw [e, setMode_thrust_mode]; split <;> simp

theorem rearmed_kept (s : State) :
    (rearmed s).life = s.life ∧ (rearmed s).bus = s.bus ∧ (rearmed s).build.state = s.build.state
      ∧ (rearmed s).cfg = s.cfg := by
  rcases rearmed_cases s with e | ⟨_, _, _, e⟩
  · rw [e]; exact ⟨rfl, rfl, rfl, rfl⟩
  · rw [e]; exact ⟨rfl, rfl, rfl, rfl⟩

theorem frame_rearmed (lim : Bool) (s : State) : FrameOf (thrustTripGone s) (settle lim (rearmed s)) := by
  have frame := settle_frame lim (rearmed s)
  rcases rearmed_cases s with e | ⟨_, _, _, e⟩
  · rw [e] at frame ⊢; exact frame_setMode frame
  · rw [e] at frame ⊢; exact frame_setMode (frame_setMode frame)

theorem settle_rearmed_trips (lim : Bool) (s : State) :
    (s.own, TripCause.thrust) ∉ (settle lim (rearmed s)).view.trips := by
  obtain ⟨base, _⟩ := frame_rearmed lim s
  have trips : (settle lim (rearmed s)).view.trips = (thrustTripGone s).view.trips :=
    congrArg (fun b => b.view.trips) base
  rw [trips]
  simp [thrustTripGone]

/-- In a build without the ERECTOR role a re-armed group ends the event in the mode of its re-arming. -/
theorem settle_rearmed_in_build {s : State} (ready : s.life = .ready) (absent : s.cfg.roles.erector = false)
    (build : s.build.state ≠ .ringOpen) (lim : Bool) :
    (settle lim (rearmed s)).thrust.mode = (rearmed s).thrust.mode := by
  obtain ⟨life, _, state, cfg⟩ := rearmed_kept s
  exact settle_mode_in_build (running_of_ready (life.trans ready)) lim (by rwa [cfg]) (by rwa [state])
    (rearmed_not_advance s)

/-! ### CLEAR TRIP with unit THRUST -/

/-- CLEAR TRIP with unit THRUST in READY passes every check (11 R162). -/
theorem exec_clearTripThrust (h : CmdHead) {s : State} (ready : s.life = .ready) :
    exec (.clearTripThrust h [0]) s = .next (answer h 4 (clearThrustOwner s)) := by
  have up : s.life ≠ .starting := by simp [ready]
  have fields : splitFields [1] [0] = some [0] := splitFields_last 1 0
  show Host.Outcome.next (takeCommand clearTripCommand h [0] s) = _
  rw [takeCommand_checks (c := clearTripCommand) up fields h]
  simp [clearTripCommand, clearTripOwner, arg, ready]

theorem rearm_answered (h : CmdHead) {s : State} (ready : s.life = .ready) (tripped : s.thrust.mode = .tripped)
    (low : s.inputs.force * 10 ≤ s.cfg.tripForce * 9) :
    exec (.clearTripThrust h [0]) s = .next (answer h 4 (done (settle false (rearmed s)))) := by
  rw [exec_clearTripThrust h ready, clearThrustOwner, if_pos tripped, if_pos low, rearmed]

/-- Settles O11: re-arming is HOLD with the pair gone, then perhaps a retraction, and the units evaluated on that. -/
theorem thrustTripCleared : Obligations.ThrustTripCleared := by
  refine ⟨fun h s ready tripped low => ?rearm, fun h s ready tripped high => ?busy, fun h s ready armed => ?idle⟩
  case busy =>
    rw [exec_clearTripThrust h ready, clearThrustOwner, if_pos tripped, if_neg (by omega)]
    exact congrArg _ (answer_refuse h 4 (by simp) s)
  case idle =>
    rw [exec_clearTripThrust h ready, clearThrustOwner, if_neg armed]
    exact congrArg _ (answer_done h 4 s)
  case rearm =>
    obtain ⟨life, bus, state, _⟩ := rearmed_kept s
    have kept := evalKeeps_settle false (rearmed s)
    refine ⟨_, rearm_answered h ready tripped low, ?_⟩
    beta_reduce
    rw [answer_thrust, answer_view]
    refine ⟨?mode, settle_rearmed_trips false s, frame_answer h 4 (frame_rearmed false s), ?answer, ?ringOpen,
      ?suspended, ?building⟩
    case mode => exact fun h => rearmed_not_tripped s (kept.tripped.1 h)
    case answer =>
      refine answered_answer h 4 .done ?_
      rw [← bus]
      exact kept.queue
    case ringOpen =>
      intro ringOpen
      have hold : (rearmed s).thrust.mode = .hold := by rw [rearmed_hold (by simp [ringOpen])]; rfl
      exact settle_follows_holds (running_of_ready (life.trans ready)) false (state.trans ringOpen) hold
    case suspended =>
      intro suspended absent
      rw [done, settle_rearmed_in_build ready absent (by simp [suspended]), rearmed_hold (by simp [suspended])]
      rfl
    case building =>
      intro building absent
      have mode := settle_rearmed_in_build ready absent (by simp [building]) false
      rcases rearmed_cases s with e | ⟨_, cover, margin, e⟩
      · left
        rw [done, mode, e]
        rfl
      · right
        refine ⟨?_, cover, margin⟩
        rw [withdrawn, answer_thrust, done, mode, e, setMode_thrust_mode]
        split <;> simp

end Sys2Proof.Machine
end

section
/-! PROOF. What the evaluation that ends an event does to the build, the drive and the record's build part, operation by
operation: nothing resumes a build (03 R49), nothing starts a drive (05 R81), and only a SET of the own erector unit,
sent from AWAITING PRESS with every covered group in HOLD, can close the ring (04 R74). -/

namespace Sys2Proof.Machine

open Sys2Proof

/-- A drive keeps its state or stops, a build keeps its state or suspends, and the record keeps its build part; where
`closes` holds the ring may close instead. -/
structure BuildFlows (closes : Prop) (s t : State) : Prop where
  drive : t.drive.state = s.drive.state ∨ t.drive.state = .stopping
  build : t.build.state = s.build.state ∨ (s.build.state = .building ∧ t.build.state = .suspended)
    ∨ (closes ∧ t.build.state = .ringOpen)
  part : ¬closes → t.records.current.build.isSome = s.records.current.build.isSome

variable {c : Prop}

namespace BuildFlows

theorem same {s t : State} (hd : t.drive.state = s.drive.state) (hb : t.build.state = s.build.state)
    (hp : t.records.current.build.isSome = s.records.current.build.isSome) : BuildFlows c s t :=
  ⟨.inl hd, .inl hb, fun _ => hp⟩

theorem refl (s : State) : BuildFlows c s s := same rfl rfl rfl

theorem trans {s t u : State} (h : BuildFlows c s t) (k : BuildFlows c t u) : BuildFlows c s u := by
  refine ⟨?drive, ?build, fun hc => (k.part hc).trans (h.part hc)⟩
  case drive =>
    rcases k.drive with e | e
    · rw [e]; exact h.drive
    · exact .inr e
  case build =>
    rcases k.build with e | ⟨building, suspended⟩ | closed
    · rw [e]; exact h.build
    · rcases h.build with e | ⟨_, e⟩ | ⟨_, e⟩
      · exact .inr (.inl ⟨e ▸ building, suspended⟩)
      · simp [e] at building
      · simp [e] at building
    · exact .inr (.inr closed)

/-- A change before the operation that leaves drive, build state and build part alone. -/
theorem after_same {s s' t : State} (h : BuildFlows c s' t) (hd : s'.drive.state = s.drive.state)
    (hb : s'.build.state = s.build.state)
    (hp : s'.records.current.build.isSome = s.records.current.build.isSome) : BuildFlows c s t :=
  (same hd hb hp).trans h

theorem not_building {s t : State} (h : BuildFlows c s t) (hs : s.build.state ≠ .building) :
    t.build.state ≠ .building := by
  rcases h.build with e | ⟨e, _⟩ | ⟨_, e⟩
  · rwa [e]
  · exact absurd e hs
  · simp [e]

theorem not_ringOpen {s t : State} (h : BuildFlows c s t) (hc : ¬c) (hs : s.build.state ≠ .ringOpen) :
    t.build.state ≠ .ringOpen := by
  rcases h.build with e | ⟨_, e⟩ | ⟨closed, _⟩
  · rwa [e]
  · simp [e]
  · exact absurd closed hc

theorem not_driving {s t : State} (h : BuildFlows c s t) (hs : s.drive.state ≠ .starting ∧ s.drive.state ≠ .running) :
    t.drive.state ≠ .starting ∧ t.drive.state ≠ .running := by
  rcases h.drive with e | e
  · rwa [e]
  · simp [e]

end BuildFlows

/-! ### Drive, screw, train and thrust unit, and the line -/

theorem buildFlows_driveEval (s : State) : BuildFlows c s (driveEval s) := by
  unfold driveEval
  split
  · exact ⟨.inr rfl, .inl rfl, fun _ => rfl⟩
  · exact .refl s

theorem buildFlows_screwEval (s : State) : BuildFlows c s (screwEval s) := by
  have blind : BuildFlows c s (pressureBlindEval s) := by
    unfold pressureBlindEval; dsimp only
    split
    · exact .same rfl rfl rfl
    · exact .same rfl rfl rfl
  have chosen : ∀ x t, BuildFlows c t (setScrew x t) := by
    intro x t; unfold setScrew
    split
    · exact .refl t
    · exact .same rfl rfl rfl
  unfold screwEval
  split
  · exact (blind.trans (chosen _ _)).trans (.same rfl rfl rfl)
  · exact .refl s

theorem buildFlows_trainEval (s : State) : BuildFlows c s (trainEval s) := by
  unfold trainEval setPace; dsimp only
  repeat' split
  all_goals exact .same rfl rfl rfl

theorem buildFlows_advanceEval (s : State) : BuildFlows c s (advanceEval s) := by
  unfold advanceEval
  repeat' split
  all_goals exact .same rfl rfl rfl

theorem buildFlows_unitsEval (lim : Bool) (s : State) : BuildFlows c s (unitsEval lim s) := by
  have paced : BuildFlows c s (trainEval (screwEval (driveEval s))) :=
    ((buildFlows_driveEval s).trans (buildFlows_screwEval _)).trans (buildFlows_trainEval _)
  have limited : ∀ t, BuildFlows c t (if lim then limitEval t else t) := by
    intro t
    cases lim
    · exact .refl t
    · exact .same rfl rfl rfl
  have held : ∀ t, BuildFlows c t (holdsEval t) := fun t => .same rfl rfl rfl
  exact (paced.trans (limited _)).trans ((held _).trans (buildFlows_advanceEval _))

theorem buildFlows_injectionEval (s : State) : BuildFlows c s (injectionEval s) := by
  unfold injectionEval tailEval; dsimp only
  repeat' split
  all_goals exact .same rfl rfl rfl

/-! ### Requests to the thrust group and the build -/

theorem buildFlows_setMode (m : GroupMode) (s : State) : BuildFlows c s (setMode m s) := .same rfl rfl rfl

theorem buildFlows_pressRequest (s : State) : BuildFlows c s (pressRequest s) := by
  rcases pressRequest_cases s with e | e | ⟨_, e⟩
  · rw [e]; exact .refl s
  · rw [e]; exact buildFlows_setMode _ s
  · rw [e]; exact (buildFlows_setMode .pressing s).trans (buildFlows_setMode _ _)

theorem buildFlows_pressIfWithdrawn (s : State) : BuildFlows c s (pressIfWithdrawn s) := by
  unfold pressIfWithdrawn
  split
  · exact buildFlows_pressRequest s
  · exact .refl s

theorem buildFlows_decideRetract (s : State) : BuildFlows c s (decideRetract s) := by
  rcases decideRetract_cases s with e | ⟨_, _, _, _, _, _, _, _, e⟩
  · rw [e]; exact .refl s
  · rw [e]; exact buildFlows_setMode _ s

theorem buildFlows_abortWithdrawal (s : State) : BuildFlows c s (abortWithdrawal s) :=
  (buildFlows_pressRequest s).trans (.same rfl rfl rfl)

theorem buildFlows_onBuildPart (f : BuildPart → BuildPart) (s : State) : BuildFlows c s (onBuildPart f s) :=
  .same rfl rfl (by simp [onBuildPart])

theorem buildFlows_suspendBuild (s : State) : BuildFlows c s (suspendBuild s) := by
  rcases suspendBuild_cases s with ⟨_, e⟩ | ⟨building, p, hp, e⟩
  · rw [e]; exact .refl s
  · rw [e]
    have pressed : BuildFlows c s p := by
      rcases hp with rfl | rfl
      · exact .refl _
      · exact buildFlows_pressIfWithdrawn s
    exact ⟨pressed.drive, .inr (.inl ⟨building, rfl⟩),
      fun hc => (buildFlows_onBuildPart (c := c) _ p).part hc |>.trans (pressed.part hc)⟩

/-! ### Ring close and STEP notices -/

theorem buildFlows_closeRing (hc : c) (r : Nat) (cause : OpeningCause) (s : State) :
    BuildFlows c s (closeRing r cause s) := by
  have advanced : BuildFlows c s (updateRingAdvance s) := by
    unfold updateRingAdvance
    split
    · exact .same rfl rfl rfl
    · exact .refl s
  have opened : ∀ t, BuildFlows c t (judgeOver false (openUnits (groutSettingsAtClose (storeAndOpen r cause
      (syncRecord (fixEntriesSet (groutTotals (accountSpoil t)))))))) :=
    fun t => ⟨.inl rfl, .inr (.inr ⟨hc, rfl⟩), fun unclosed => absurd hc unclosed⟩
  have judged : ∀ t, BuildFlows c t (judgeLinePressure t) := by
    intro t; unfold judgeLinePressure
    split
    · exact .same rfl rfl rfl
    · exact .refl t
  exact ((advanced.trans (opened _)).trans (buildFlows_unitsEval false _)).trans
    ((buildFlows_injectionEval _).trans (judged _))

theorem buildFlows_pressPassed (s : State) : BuildFlows c s (pressPassed s) := by
  rcases pressPassed_cases s with e | ⟨_, _, _, _, e⟩
  · rw [e]; exact .refl s
  · rw [e]; exact .same rfl rfl rfl

theorem buildFlows_sequencePassed (s : State) : BuildFlows c s (sequencePassed s) := by
  rcases sequencePassed_cases s with e | ⟨_, _, _, _, e⟩
  · rw [e]; exact .refl s
  · rw [e]; exact .same rfl rfl rfl

theorem buildFlows_raiseMismatch (s : State) : BuildFlows c s (raiseMismatch s) := .same rfl rfl rfl

theorem buildFlows_moveIndex (i : Nat) (s : State) : BuildFlows c s (moveIndex i s) := .same rfl rfl rfl

theorem buildFlows_setEntryState (e : EntryState) (s : State) : BuildFlows c s (setEntryState e s) := .same rfl rfl rfl

theorem buildFlows_judgeEmpty (s : State) : BuildFlows c s (judgeEmpty s) := by
  unfold judgeEmpty
  split
  · exact (buildFlows_raiseMismatch s).trans (buildFlows_suspendBuild _)
  · exact .refl s

theorem buildFlows_catchUp (j : Nat) (s : State) : BuildFlows c s (catchUp j s) :=
  ((buildFlows_moveIndex j s).trans (buildFlows_pressPassed _)).trans
    (((buildFlows_onBuildPart _ _).trans (buildFlows_pressIfWithdrawn _)).trans (buildFlows_judgeEmpty _))

theorem buildFlows_setEntry (hc : c) (e : PlanEntry) (s : State) : BuildFlows c s (setEntry e s) := by
  have moved : BuildFlows c s (moveIndex (s.build.index + 1) s) := buildFlows_moveIndex _ s
  unfold setEntry; dsimp only
  split
  · exact (moved.trans (buildFlows_sequencePassed _)).trans
      ((buildFlows_pressIfWithdrawn _).trans (buildFlows_closeRing hc _ _ _))
  · exact (moved.trans (buildFlows_pressPassed _)).trans
      ((buildFlows_pressIfWithdrawn _).trans (buildFlows_judgeEmpty _))

theorem buildFlows_releaseEntry (s : State) : BuildFlows c s (releaseEntry s) := by
  have pending : BuildFlows c s (setEntryState .pending s) := buildFlows_setEntryState _ s
  unfold releaseEntry; dsimp only
  repeat' split
  · exact pending.trans (buildFlows_pressRequest _)
  · exact pending
  · exact pending.trans (buildFlows_abortWithdrawal _)
  · exact pending

theorem buildFlows_placeEntry (s : State) : BuildFlows c s (placeEntry s) := by
  have placed : BuildFlows c s (setEntryState .placed s) := buildFlows_setEntryState _ s
  unfold placeEntry; dsimp only
  split
  · exact placed.trans (buildFlows_pressIfWithdrawn _)
  · exact placed

/-- Of the actions SET alone can close the ring (03 R60, R61). -/
theorem buildFlows_applyAction {a : StepAction} (hc : a = .set → c) (s : State) : BuildFlows c s (applyAction a s) := by
  unfold applyAction
  split
  · exact .refl s
  · split
    · exact buildFlows_setEntry (hc rfl) _ s
    · exact buildFlows_raiseMismatch s
    · exact buildFlows_setEntryState _ s
    · exact buildFlows_releaseEntry s
    · exact buildFlows_releaseEntry s
    · exact buildFlows_placeEntry s
    · exact buildFlows_placeEntry s
    · exact buildFlows_placeEntry s
    · exact .refl s

theorem buildFlows_takeStep {a : StepAction} (hc : a = .set → c) (r i : Nat) (s : State) :
    BuildFlows c s (takeStep a r i s) := by
  have judged : BuildFlows c s (judgeStep a r i s) := by
    unfold judgeStep
    repeat' split
    · exact .refl s
    · exact .refl s
    · exact buildFlows_raiseMismatch s
    · exact buildFlows_raiseMismatch s
    · exact .refl s
    · exact buildFlows_applyAction hc s
    · exact (buildFlows_catchUp i s).trans (buildFlows_applyAction hc _)
  exact judged.trans (buildFlows_decideRetract _)

/-! ### The erector sequence -/

theorem buildFlows_setSeq (q : SeqState) (s : State) : BuildFlows c s (setSeq q s) := .same rfl rfl rfl

/-- A STEP of the own erector unit after a change of its sequence. -/
theorem buildFlows_issueStep (q : SeqState) {a : StepAction} (hc : a = .set → c) (w : Working) (s : State) :
    BuildFlows c s (issueStep a w (setSeq q s)) :=
  (buildFlows_takeStep hc w.ring w.index _).after_same rfl rfl rfl

theorem buildFlows_placingTest (w : Working) (s : State) : BuildFlows c s (placingTest w s) := by
  unfold placingTest
  split
  · exact .same rfl rfl rfl
  · split
    · exact buildFlows_issueStep .placing (by simp) w s
    · exact (buildFlows_suspendBuild _).after_same rfl rfl rfl

/-- The erector unit sends SET: AWAITING PRESS with every covered group in HOLD (04 R74). -/
def setDue (s : State) : Prop :=
  s.erector.seq = .awaitingPress ∧ ∃ w, s.erector.working = some w ∧ w.cover.all (seenIn s .hold) = true

theorem buildFlows_seqStep {s : State} (hc : setDue s → c) : BuildFlows c s (seqStep s) := by
  unfold seqStep
  split
  · unfold leaveStandby
    repeat' split
    all_goals exact .same rfl rfl rfl
  · exact buildFlows_setSeq _ s
  · repeat' split
    · exact buildFlows_setSeq _ s
    · exact buildFlows_placingTest _ s
    · exact .refl s
  · repeat' split
    · exact buildFlows_issueStep .standby (by simp) _ s
    · exact buildFlows_setSeq _ s
    · exact buildFlows_issueStep .standby (by simp) _ s
    · exact .refl s
    · exact buildFlows_issueStep .awaitingClear (by simp) _ s
  · next w seq working =>
    repeat' split
    · exact buildFlows_setSeq _ s
    · next held => exact buildFlows_issueStep .standby (fun _ => hc ⟨seq, w, working, held⟩) w s
    · exact .refl s

/-- An erector unit that does not send SET does not come to by itself. -/
theorem setDue_of_seqStep {s : State} (h : setDue (seqStep s)) : setDue s := by
  by_cases waits : s.erector.seq = .awaitingPress
  · unfold seqStep at h
    split at h
    · next e => simp [e] at waits
    · obtain ⟨seq, _⟩ := h; simp at seq
    · next e _ => simp [e] at waits
    · next e _ => simp [e] at waits
    · next w _ working =>
      repeat' split at h
      · obtain ⟨seq, _⟩ := h; simp at seq
      · next held => exact ⟨waits, w, working, held⟩
      · exact h
  · exact absurd h.1 (seqStep_keeps waits).1

theorem buildFlows_seqSteps (n : Nat) {s : State} (hc : setDue s → c) : BuildFlows c s (seqSteps n s) := by
  induction n generalizing s with
  | zero => exact .refl s
  | succ n ih =>
    unfold seqSteps
    split
    · exact buildFlows_seqStep hc
    · exact (buildFlows_seqStep hc).trans (ih fun due => hc (setDue_of_seqStep due))

/-! ### The end of an event -/

/-- The units are evaluated, and what follows in the event can close the ring only by the erector unit's SET. -/
theorem buildFlows_settle_of_units (lim : Bool) {s : State} (running : s.running = true)
    (hc : s.cfg.roles.erector = true → setDue (unitsEval lim s) → c) :
    BuildFlows c (unitsEval lim s) (settle lim s) := by
  have worked : BuildFlows c (unitsEval lim s) (erectorEval (unitsEval lim s)) := by
    unfold erectorEval
    split
    · next present => exact buildFlows_seqSteps 8 (hc (by simpa using present))
    · exact .refl _
  have shown : ∀ t, BuildFlows c t (setOutputs (syncRecord t)) := fun t => .same rfl rfl rfl
  unfold settle
  rw [if_pos running]
  exact (worked.trans (buildFlows_unitsEval lim _)).trans ((buildFlows_injectionEval _).trans (shown _))

/-- A build that is not BUILDING does not go on as an event ends. -/
theorem settle_not_building (lim : Bool) {s : State} (running : s.running = true) (h : s.build.state ≠ .building) :
    (settle lim s).build.state ≠ .building :=
  ((buildFlows_unitsEval (c := True) lim s).trans
    (buildFlows_settle_of_units lim running fun _ _ => trivial)).not_building h

/-- In a build no drive is STARTING or RUNNING as an event ends (05 R80). -/
theorem settle_not_driving (lim : Bool) {s : State} (running : s.running = true) (h : s.build.state ≠ .ringOpen) :
    (settle lim s).drive.state ≠ .starting ∧ (settle lim s).drive.state ≠ .running := by
  have units : (unitsEval lim s).drive.state ≠ .starting ∧ (unitsEval lim s).drive.state ≠ .running := by
    have barred : startConditions s = false := by simp [startConditions, h]
    rw [unitsEval_drive, driveEval, barred]
    split
    · simp
    · next idle => simpa [not_or] using idle
  exact (buildFlows_settle_of_units (c := True) lim running fun _ _ => trivial).not_driving units

end Sys2Proof.Machine
end

section
/-! PROOF. What the build unit's commands share: how a command that passes its checks is answered, what the requests to
the own group leave alone (02 R26, 03 R52), what the record's build part and an open ring keep as an event ends, and
when the own erector unit sends no SET (04 R74). -/

namespace Sys2Proof.Machine

open Sys2Proof

/-! ### A command that passes its checks -/

/-- At a READY station a command that passes the checks is answered by its owner (11 R162). -/
theorem takeCommand_ready {cmd : Command} {h : CmdHead} {ops : List Byte} {args : List Nat} {s : State}
    (ready : s.life = .ready) (fields : splitFields (cmd.sizes ops) ops = some args)
    (permitted : cmd.permitted h.source args = true) (needs : cmd.needs args s.cfg.roles = true)
    (range : cmd.range args s = none) :
    takeCommand cmd h ops s = answer h cmd.number (cmd.owner args s) := by
  rw [takeCommand_checks (by simp [ready]) fields h]
  simp [permitted, needs, range, ready]

@[simp] theorem answer_build (h : CmdHead) (n : Nat) (a : Answer) : (answer h n a).build = a.state.build := by
  obtain ⟨q, shape⟩ := answer_shape h n a
  rw [shape]

@[simp] theorem answer_drive (h : CmdHead) (n : Nat) (a : Answer) : (answer h n a).drive = a.state.drive := by
  obtain ⟨q, shape⟩ := answer_shape h n a
  rw [shape]

@[simp] theorem answer_records (h : CmdHead) (n : Nat) (a : Answer) : (answer h n a).records = a.state.records := by
  obtain ⟨q, shape⟩ := answer_shape h n a
  rw [shape]

@[simp] theorem ring_answer (h : CmdHead) (n : Nat) (a : Answer) : ringOf (answer h n a) = ringOf a.state := by
  obtain ⟨q, shape⟩ := answer_shape h n a
  rw [shape]
  rfl

/-- An effect that leaves the queue to the units is answered DONE (11 R164). -/
theorem answered_done_settle (h : CmdHead) (n : Nat) {s e : State} (queue : QueueKept s.bus.queue e) :
    Answered h n .done s (answer h n (done (settle false e))) :=
  answered_answer h n .done (queue.trans (evalKeeps_settle false e).queue)

/-! ### Requests to the thrust group -/

/-- A PRESS request that an event makes is a change of the group mode, or nothing (02 R26). -/
theorem pressIfWithdrawn_cases (s : State) :
    pressIfWithdrawn s = s ∨ pressIfWithdrawn s = setMode .pressing s
      ∨ pressIfWithdrawn s = setMode .hold (setMode .pressing s) := by
  unfold pressIfWithdrawn
  split
  · rcases pressRequest_cases s with e | e | ⟨_, e⟩
    · exact .inl e
    · exact .inr (.inl e)
    · exact .inr (.inr e)
  · exact .inl rfl

@[simp] theorem pressIfWithdrawn_records (s : State) : (pressIfWithdrawn s).records = s.records := by
  rcases pressIfWithdrawn_cases s with e | e | e <;> rw [e] <;> rfl

@[simp] theorem plan_pressIfWithdrawn (s : State) : planOf (pressIfWithdrawn s) = planOf s := by
  rcases pressIfWithdrawn_cases s with e | e | e <;> rw [e] <;> rfl

/-- A withdrawn group presses, through to HOLD with the force reached (02 R26, R28). -/
theorem pressIfWithdrawn_mode {s : State} (h : withdrawn s = true) :
    (pressIfWithdrawn s).thrust.mode = if s.cfg.pressForce ≤ s.inputs.force then .hold else .pressing := by
  have pressed : pressRequest s =
      if s.cfg.pressForce ≤ s.inputs.force then setMode .hold (setMode .pressing s) else setMode .pressing s := by
    obtain mode | mode : s.thrust.mode = .retracting ∨ s.thrust.mode = .clear := by simpa [withdrawn] using h
    · simp [pressRequest, mode]
    · simp [pressRequest, mode]
  rw [pressIfWithdrawn, if_pos h, pressed]
  split
  · rfl
  · rfl

@[simp] theorem decideRetract_records (s : State) : (decideRetract s).records = s.records := by
  rcases decideRetract_cases s with e | ⟨_, _, _, _, _, _, _, _, e⟩ <;> rw [e]; rfl

@[simp] theorem decideRetract_bus (s : State) : (decideRetract s).bus = s.bus := by
  rcases decideRetract_cases s with e | ⟨_, _, _, _, _, _, _, _, e⟩ <;> rw [e]; rfl

theorem decideRetract_surroundings (s : State) : SameSurroundings (decideRetract s) s := by
  rcases decideRetract_cases s with e | ⟨_, _, _, _, _, _, _, _, e⟩
  · rw [e]; exact ⟨rfl, rfl, rfl, rfl, rfl, rfl, rfl⟩
  · rw [e]; exact ⟨rfl, rfl, rfl, rfl, rfl, rfl, rfl⟩

/-- The retraction decision changes the group mode alone, so it is no part of what a frame is about. -/
theorem frame_decideRetract {e t : State} (frame : FrameOf (decideRetract e) t) : FrameOf e t := by
  rcases decideRetract_cases e with same | ⟨_, _, _, _, _, _, _, _, withdraws⟩
  · rwa [same] at frame
  · rw [withdraws] at frame; exact frame_setMode frame

/-- A retraction decision acts on a group in HOLD alone, and takes it to no other mode than RETRACTING or CLEAR. -/
theorem decideRetract_mode_cases (s : State) :
    (decideRetract s).thrust.mode = s.thrust.mode
      ∨ (s.thrust.mode = .hold
          ∧ ((decideRetract s).thrust.mode = .retracting ∨ (decideRetract s).thrust.mode = .clear)) := by
  rcases decideRetract_cases s with e | ⟨_, _, _, hold, _, _, _, _, e⟩
  · exact .inl (by rw [e])
  · refine .inr ⟨hold, ?_⟩
    rw [e, setMode_thrust_mode]
    split <;> simp

/-- In a build that goes on, at an entry PENDING, a group in HOLD withdraws if its sector is covered and the margin met
(03 R52). -/
theorem decideRetract_mode {s : State} (building : s.build.state = .building)
    (pending : currentEntryState s = some .pending) (hold : s.thrust.mode = .hold) (untripped : s.view.trips = [])
    (seeing : s.view.blind = false) (waited : s.build.retry = none) :
    (decideRetract s).thrust.mode =
      if ownCovered s && marginMet s then (if s.inputs.retracted then .clear else .retracting) else .hold := by
  by_cases acts : (ownCovered s && marginMet s) = true
  · obtain ⟨cover, margin⟩ : ownCovered s = true ∧ marginMet s = true := by simpa using acts
    simp [decideRetract, retractRequest, tripInView, building, pending, hold, untripped, seeing, waited, cover, margin]
  · rw [if_neg acts]
    rcases decideRetract_cases s with e | ⟨_, cover, _, _, _, _, _, margin, _⟩
    · rw [e, hold]
    · simp [cover, margin] at acts

/-! ### The build part of the record -/

@[simp] theorem unitsEval_buildPart (lim : Bool) (s : State) :
    (unitsEval lim s).records.current.build = s.records.current.build := by
  have screw : (screwEval (driveEval s)).records.current.build = s.records.current.build := by
    unfold screwEval setScrew pressureBlindEval driveEval; dsimp only [supportEval]
    repeat' split
    all_goals rfl
  have train : ∀ t, (trainEval t).records = t.records := by
    intro t; unfold trainEval setPace; dsimp only
    repeat' split
    all_goals rfl
  have advance : ∀ t, (advanceEval t).records = t.records := by
    intro t; unfold advanceEval
    repeat' split
    all_goals rfl
  unfold unitsEval
  cases lim
  · simp [advance, train, screw]
  · simp [advance, train, screw]

@[simp] theorem injectionEval_records (s : State) : (injectionEval s).records = s.records := by
  unfold injectionEval tailEval; dsimp only
  repeat' split
  all_goals rfl

@[simp] theorem injectionEval_build (s : State) : (injectionEval s).build = s.build := by
  unfold injectionEval tailEval; dsimp only
  repeat' split
  all_goals rfl

/-- Where the erector unit leaves the record alone, the end of an event leaves its build part alone. -/
theorem settle_buildPart (lim : Bool) {s : State}
    (idle : (erectorEval (unitsEval lim s)).records = (unitsEval lim s).records) :
    (settle lim s).records.current.build = s.records.current.build := by
  unfold settle
  split
  · simp [idle]
  · rfl

theorem settle_buildPart_of_absent (lim : Bool) {s : State} (absent : s.cfg.roles.erector = false) :
    (settle lim s).records.current.build = s.records.current.build :=
  settle_buildPart lim (by rw [erectorEval_absent (by simpa using absent)])

/-! ### An open ring -/

/-- In an open ring the erector sequence changes itself and the transmit queue alone. -/
theorem seqStep_shape_ringOpen {s : State} (h : s.build.state = .ringOpen) :
    ∃ x b, seqStep s = { s with erector := x, bus := b } := by
  have sent : ∀ a w q, ∃ x b, issueStep a w (setSeq q s) = { s with erector := x, bus := b } := fun a w q =>
    ⟨_, _, issueStep_ringOpen (s := setSeq q s) h a w⟩
  have ended : ∀ w, workEnded w s = true := fun w => by simp [workEnded, h]
  have stays : ∃ x b, s = { s with erector := x, bus := b } := ⟨s.erector, s.bus, rfl⟩
  have stands : ∀ q, ∃ x b, setSeq q s = { s with erector := x, bus := b } := fun q => ⟨_, s.bus, rfl⟩
  unfold seqStep
  split
  · simpa [leaveStandby, h] using stays
  · exact stands _
  · simpa [ended] using stands _
  · repeat' split
    · exact sent _ _ _
    · exact stands _
    · exact sent _ _ _
    · exact stays
    · exact sent _ _ _
  · repeat' split
    · exact stands _
    · exact sent _ _ _
    · exact stays

theorem erectorEval_shape_ringOpen {s : State} (h : s.build.state = .ringOpen) :
    ∃ x b, erectorEval s = { s with erector := x, bus := b } := by
  have steps : ∀ n (t : State), t.build.state = .ringOpen →
      ∃ x b, seqSteps n t = { t with erector := x, bus := b } := by
    intro n
    induction n with
    | zero => exact fun t _ => ⟨t.erector, t.bus, rfl⟩
    | succ n ih =>
      intro t ht
      obtain ⟨x, b, first⟩ := seqStep_shape_ringOpen ht
      unfold seqSteps
      split
      · exact ⟨x, b, first⟩
      · rw [first]; exact ih { t with erector := x, bus := b } ht
  unfold erectorEval
  split
  · exact steps 8 s h
  · exact ⟨s.erector, s.bus, rfl⟩

/-- Without MARGIN LOW a change of mode leaves the build unit as it is (03 R53). -/
theorem setMode_build_of_not_low {s : State} (low : s.build.marginLow = false) (m : GroupMode) :
    (setMode m s).build = s.build := by
  unfold setMode
  rw [low, Bool.false_and, ← low]

/-- Without MARGIN LOW the units leave the build unit as it is. -/
theorem unitsEval_build (lim : Bool) {s : State} (low : s.build.marginLow = false) :
    (unitsEval lim s).build = s.build := by
  have kept : ∀ t : State, t.build = s.build → (advanceEval (holdsEval t)).build = s.build := by
    intro t ht
    have moded : ∀ m, (setMode m (holdsEval t)).build = s.build := fun m =>
      (setMode_build_of_not_low (s := holdsEval t) (by simpa [ht] using low) m).trans ht
    unfold advanceEval
    repeat' split
    · exact moded _
    · exact ht
    · exact ht
    · exact moded _
    · exact ht
  have paced : (trainEval (screwEval (driveEval s))).build = s.build := by
    unfold trainEval setPace screwEval setScrew pressureBlindEval; dsimp only [supportEval]
    repeat' split
    all_goals simp
  unfold unitsEval
  cases lim
  · exact kept _ paced
  · exact kept _ paced

/-- The units move a group between HOLD and ADVANCE alone (02 R25). -/
theorem unitsEval_mode_cases (lim : Bool) (s : State) :
    (unitsEval lim s).thrust.mode = s.thrust.mode
      ∨ ((s.thrust.mode = .hold ∨ s.thrust.mode = .advance)
          ∧ ((unitsEval lim s).thrust.mode = .hold ∨ (unitsEval lim s).thrust.mode = .advance)) := by
  by_cases h : s.thrust.mode = .hold ∨ s.thrust.mode = .advance
  · refine .inr ⟨h, ?_⟩
    rw [unitsEval_follows_holds lim h]
    split <;> simp
  · obtain ⟨p, e, mode, _⟩ := unitsEval_eq_advanceEval lim s
    refine .inl ?_
    rw [e, ← mode]
    rw [← mode, not_or] at h
    obtain ⟨notHold, notAdvance⟩ := h
    unfold advanceEval
    split
    · contradiction
    · contradiction
    · rfl

/-- What the end of an event leaves of an open ring without MARGIN LOW, whatever the erector sequence does: the build
unit, the figures of the ring and the record's build part. -/
theorem settle_ringOpen (lim : Bool) {s : State} (ringOpen : s.build.state = .ringOpen)
    (low : s.build.marginLow = false) :
    (settle lim s).build = s.build ∧ ringOf (settle lim s) = ringOf s
      ∧ (settle lim s).records.current.build = s.records.current.build := by
  have first := unitsEval_build lim low
  obtain ⟨x, b, shape⟩ := erectorEval_shape_ringOpen (s := unitsEval lim s) (by rw [first, ringOpen])
  have worked : (erectorEval (unitsEval lim s)).build = s.build := by rw [shape]; exact first
  refine ⟨?build, ?ring, settle_buildPart lim (by rw [shape])⟩
  case build =>
    unfold settle
    split
    · rw [setOutputs_build, syncRecord_build, injectionEval_build, unitsEval_build lim (by rwa [worked]), worked]
    · rfl
  case ring =>
    have ring : ringOf (erectorEval (unitsEval lim s)) = ringOf s := by rw [shape]; exact ring_unitsEval lim s
    unfold settle
    split
    · simp [ring]
    · rfl

/-- In an open ring the end of an event moves the group between HOLD and ADVANCE alone (02 R25). -/
theorem settle_mode_ringOpen {s : State} (running : s.running = true) (lim : Bool)
    (ringOpen : s.build.state = .ringOpen) :
    (settle lim s).thrust.mode = s.thrust.mode
      ∨ ((s.thrust.mode = .hold ∨ s.thrust.mode = .advance)
          ∧ ((settle lim s).thrust.mode = .hold ∨ (settle lim s).thrust.mode = .advance)) := by
  have again : (erectorEval (unitsEval lim s)).thrust = (unitsEval lim s).thrust :=
    erectorEval_thrust_ringOpen (by rw [unitsEval_build_state, ringOpen])
  have second := unitsEval_mode_cases lim (erectorEval (unitsEval lim s))
  rw [again] at second
  rw [settle_thrust running]
  rcases unitsEval_mode_cases lim s with first | ⟨was, _⟩
  · rwa [first] at second
  · rcases second with e | ⟨_, is⟩
    · rw [e]; exact unitsEval_mode_cases lim s
    · exact .inr ⟨was, is⟩

/-! ### The erector unit's SET -/

/-- A sequence that stands settled sends no SET in an event that leaves the erector unit as it was and brings no group
to HOLD (04 R74). -/
theorem not_setDue {s e : State} {b : Bool} (settled : SequenceSettled s) (running : s.running = true)
    (present : s.cfg.roles.erector = true) (base : baseOf e = { baseOf s with stopped := b })
    (erector : e.erector = s.erector) (mode : e.thrust.mode = .hold → s.thrust.mode = .hold) : ¬setDue e := by
  rintro ⟨seq, w, working, held⟩
  have waits := settled running present
  rw [erector] at seq working
  rw [seq] at waits
  obtain ⟨w', working', _, unheld⟩ := waits
  obtain rfl : w = w' := by simpa [working] using working'
  have own : e.own = s.own := congrArg Base.own base
  have peers : e.view.peers = s.view.peers := congrArg (fun x => x.view.peers) base
  have seen : ∀ a, seenIn e .hold a = true → seenIn s .hold a = true := by
    intro a ha
    have body : freshBody e a = freshBody s a := by simp only [freshBody, entryOf, own, peers]
    unfold seenIn at ha ⊢
    rw [own] at ha
    split
    · next self => rw [if_pos self] at ha; simpa using mode (by simpa using ha)
    · next peer => rw [if_neg peer, body] at ha; exact ha
  have held' : w.cover.all (seenIn s .hold) = true := by
    rw [List.all_eq_true] at held ⊢
    exact fun a ha => seen a (held a ha)
  simp [held'] at unheld

/-! ### The retraction decision and the end of the event -/

section
variable {s e : State}

theorem decideRetract_running (running : e.running = true) : (decideRetract e).running = true := by
  rw [← running]
  simp only [State.running, (decideRetract_surroundings e).life]

theorem decideRetract_not_advance (advance : e.thrust.mode ≠ .advance) : (decideRetract e).thrust.mode ≠ .advance := by
  rcases decideRetract_mode_cases e with same | ⟨_, out | out⟩
  · rwa [same]
  · simp [out]
  · simp [out]

/-- The answer to a command that ends in a retraction decision has the frame of what the decision found. -/
theorem frame_answer_decideRetract (h : CmdHead) (n : Nat) (e : State) :
    FrameOf e (answer h n (done (settle false (decideRetract e)))) :=
  frame_answer h n (a := done (settle false (decideRetract e)))
    (frame_decideRetract (settle_frame false (decideRetract e)))

/-- In a build without the ERECTOR role the retraction decision has the last word on the mode of a group outside
ADVANCE, and the record keeps its build part. -/
theorem settle_decideRetract_of_absent (running : e.running = true) (absent : e.cfg.roles.erector = false)
    (build : e.build.state ≠ .ringOpen) (advance : e.thrust.mode ≠ .advance) :
    (settle false (decideRetract e)).thrust.mode = (decideRetract e).thrust.mode
      ∧ (settle false (decideRetract e)).records.current.build = e.records.current.build := by
  have around := decideRetract_surroundings e
  have absent' : (decideRetract e).cfg.roles.erector = false := by rwa [around.cfg]
  refine ⟨settle_mode_in_build (decideRetract_running running) false absent' (by rwa [around.build])
    (decideRetract_not_advance advance), ?_⟩
  rw [settle_buildPart_of_absent false absent', decideRetract_records]

/-- At a station whose erector sequence stands settled a build that is begun or resumed is still there as the event
ends, and so is the build part of the record. -/
theorem settle_decideRetract_keeps_build {b : Bool} (settled : SequenceSettled s) (running : s.running = true)
    (base : baseOf e = { baseOf s with stopped := b }) (erector : e.erector = s.erector)
    (mode : e.thrust.mode = s.thrust.mode) (build : e.build.state ≠ .ringOpen) (advance : e.thrust.mode ≠ .advance) :
    (settle false (decideRetract e)).build.state ≠ .ringOpen
      ∧ (settle false (decideRetract e)).records.current.build.isSome = e.records.current.build.isSome := by
  have around := decideRetract_surroundings e
  have inBuild : (decideRetract e).build.state ≠ .ringOpen := by rwa [around.build]
  have life : e.life = s.life := congrArg Base.life base
  have cfg : e.cfg = s.cfg := congrArg Base.cfg base
  have unset : (decideRetract e).cfg.roles.erector = true → setDue (unitsEval false (decideRetract e)) → False := by
    intro present
    refine not_setDue settled running (by rwa [← cfg, ← around.cfg]) (b := b) ?_ (by simp [erector]) ?_
    · rw [base_unitsEval, base_decideRetract, base]
    · rw [unitsEval_mode_in_build false inBuild (decideRetract_not_advance advance), ← mode]
      intro hold
      rcases decideRetract_mode_cases e with same | ⟨was, _⟩
      · exact same.symm.trans hold
      · exact was
  have flows : BuildFlows False (decideRetract e) (settle false (decideRetract e)) :=
    (buildFlows_unitsEval false _).trans (buildFlows_settle_of_units false
      (decideRetract_running (by rw [← running]; simp only [State.running, life])) unset)
  refine ⟨flows.not_ringOpen id inBuild, (flows.part id).trans ?_⟩
  rw [decideRetract_records]

end

end Sys2Proof.Machine
end

section
/-! PROOF. BEGIN BUILD (03 R44, R45): the condition that refuses it, the station with the build begun, and the
retraction decision on it (03 R52). -/

namespace Sys2Proof.Machine

open Sys2Proof

/-- BEGIN BUILD in READY passes every check of form, source and equipment (11 R162). -/
theorem exec_beginBuild {ring : Nat} (hr : ring < 65536) (h : CmdHead) {s : State} (ready : s.life = .ready) :
    exec (.beginBuild h (beBytes 2 ring)) s = .next (answer h 7 (beginBuildCommand.owner [ring] s)) := by
  have fields : splitFields [2] (beBytes 2 ring) = some [ring] := by
    rw [splitFields_last, Nat.mod_eq_of_lt (by omega)]
  show Host.Outcome.next (takeCommand beginBuildCommand h (beBytes 2 ring) s) = _
  rw [takeCommand_ready (cmd := beginBuildCommand) ready fields rfl rfl rfl]
  rfl

/-- The first condition of 03 R44 that is not met, in the terms of the statements. -/
theorem beginRefusal_eq (ring : Nat) (s : State) :
    beginRefusal ring s =
      if s.build.state ≠ .ringOpen then some Result.busy
      else if ring ≠ s.records.ring then some .planMismatch
      else if s.build.entries = [] ∨ s.build.planRing ≠ s.records.ring then some .notReady
      else if s.build.entries.any (fun e => e.state = .empty) = true then some .notReady
      else if s.thrust.mode ≠ .hold then some .notReady
      else if s.thrust.advance < s.cfg.w then some .notReady
      else if s.view.trips ≠ [] then some .notReady
      else if s.view.blind = true then some .notReady
      else none := by
  simp only [beginRefusal, tripInView, Bool.or_eq_true, List.isEmpty_iff, decide_eq_true_eq, Bool.not_eq_true',
    List.isEmpty_eq_false_iff]

theorem beginRefusal_ne_done (ring : Nat) (s : State) : beginRefusal ring s ≠ some .done := by
  unfold beginRefusal
  repeat' split
  all_goals simp

/-- The station with a build begun, before the retraction decision (03 R45, 09 R139). -/
def buildBegun (s : State) : State :=
  { s with
    thrust.holds.stopped := true
    build :=
      { s.build with
        state := .building, index := 0, retry := none
        entries := s.build.entries.modify 0 (fun e => { e with state := .pending }) }
    records.current.build := some (s.records.current.build.getD BuildPart.fresh) }

theorem startBuild_eq (s : State) : startBuild s = decideRetract (buildBegun s) := rfl

theorem exec_beginBuild_refused {ring : Nat} (hr : ring < 65536) (h : CmdHead) {s : State} (ready : s.life = .ready)
    {r : Result} (refusal : beginRefusal ring s = some r) :
    exec (.beginBuild h (beBytes 2 ring)) s = .next (replyOnly h 7 r s) := by
  have notDone : r ≠ .done := fun e => beginRefusal_ne_done ring s (e ▸ refusal)
  have owner : beginBuildCommand.owner [ring] s = refuse r s := by
    show (match beginRefusal ring s with | some r => refuse r s | none => done (settle false (startBuild s))) = _
    rw [refusal]
  rw [exec_beginBuild hr h ready, owner, answer_refuse h 7 notDone]

theorem exec_beginBuild_taken {ring : Nat} (hr : ring < 65536) (h : CmdHead) {s : State} (ready : s.life = .ready)
    (taken : beginRefusal ring s = none) :
    exec (.beginBuild h (beBytes 2 ring)) s =
      .next (answer h 7 (done (settle false (decideRetract (buildBegun s))))) := by
  have owner : beginBuildCommand.owner [ring] s = done (settle false (startBuild s)) := by
    show (match beginRefusal ring s with | some r => refuse r s | none => done (settle false (startBuild s))) = _
    rw [taken]
  rw [exec_beginBuild hr h ready, owner, startBuild_eq]

/-- A build begun stands at its first entry, PENDING, and covers the sectors of that entry. -/
theorem buildBegun_entry {s : State} (plan : s.build.entries ≠ []) :
    currentEntryState (buildBegun s) = some .pending
      ∧ ownCovered (buildBegun s) = ((s.build.entries.head?.map PlanEntry.cover).getD []).contains s.own := by
  obtain ⟨e, es, list⟩ := List.exists_cons_of_ne_nil plan
  simp [currentEntryState, ownCovered, planAt, buildBegun, list]

/-- The mode that BEGIN BUILD leaves a group in: a covered group withdraws when the margin is met (03 R52). -/
theorem buildBegun_mode {s : State} (plan : s.build.entries ≠ []) (hold : s.thrust.mode = .hold)
    (untripped : s.view.trips = []) (seeing : s.view.blind = false) :
    (decideRetract (buildBegun s)).thrust.mode =
      if ((s.build.entries.head?.map PlanEntry.cover).getD []).contains s.own && marginMet s then
        (if s.inputs.retracted then .clear else .retracting)
      else .hold := by
  obtain ⟨pending, covered⟩ := buildBegun_entry plan
  have margin : marginMet (buildBegun s) = marginMet s := rfl
  rw [decideRetract_mode rfl pending hold untripped seeing rfl, covered, margin]
  rfl

/-- Settles O21: the effect is the frame of the build begun, on which the retraction decision and the units act. -/
theorem beginBuildChecksAndEffect : Obligations.BeginBuildChecksAndEffect := by
  refine ⟨fun h ring r s ready hr refusal =>
    exec_beginBuild_refused hr h ready ((beginRefusal_eq ring s).trans refusal), ?taken⟩
  intro h s ready hr ringOpen plan planRing noEmpty hold ended untripped seeing
  have taken : beginRefusal s.records.ring s = none := by
    simp [beginRefusal_eq, ringOpen, plan, planRing, noEmpty, hold, Nat.not_lt.mpr ended, untripped, seeing]
  have resting : (buildBegun s).thrust.mode ≠ .advance := by simp [buildBegun, hold]
  have inBuild : (buildBegun s).build.state ≠ .ringOpen := by simp [buildBegun]
  have running : (buildBegun s).running = true := running_of_ready (s := buildBegun s) ready
  obtain ⟨base, ring, alone⟩ := frame_answer_decideRetract h 7 (buildBegun s)
  obtain ⟨unstarted, unrun⟩ := settle_not_driving false (decideRetract_running running)
    (by rwa [(decideRetract_surroundings _).build])
  refine ⟨_, exec_beginBuild_taken hr h ready taken, ?answer, congrArg Base.stopped base, ?goesOn, ?_, ?_, base, ring,
    ?alone⟩
  case answer => exact answered_done_settle h 7 (queueKept_same (by rw [decideRetract_bus]; rfl))
  case goesOn =>
    intro settled
    rw [answer_build, answer_records]
    exact settle_decideRetract_keeps_build settled (running_of_ready ready) rfl rfl rfl inBuild resting
  · rw [answer_drive]; exact unstarted
  · rw [answer_drive]; exact unrun
  case alone =>
    intro absent
    obtain ⟨planKept, _⟩ := alone absent
    obtain ⟨mode, part⟩ := settle_decideRetract_of_absent running absent inBuild resting
    rw [answer_records, answer_thrust]
    exact ⟨planKept, part, mode.trans (buildBegun_mode plan hold untripped seeing)⟩

end Sys2Proof.Machine
end

section
/-! PROOF. SUSPEND BUILD, RESUME BUILD and ABANDON BUILD (03 R46, R48 to R50): what each makes of the station, and the
end of the event on that. -/

namespace Sys2Proof.Machine

open Sys2Proof

/-! ### SUSPEND BUILD -/

theorem exec_suspendBuild (h : CmdHead) {s : State} (ready : s.life = .ready) :
    exec (.suspendBuild h []) s = .next (answer h 8 (suspendBuildCommand.owner [] s)) :=
  congrArg _ (takeCommand_ready (cmd := suspendBuildCommand) ready rfl rfl rfl rfl)

theorem exec_suspendBuild_taken (h : CmdHead) {s : State} (ready : s.life = .ready)
    (building : s.build.state = .building) :
    exec (.suspendBuild h []) s = .next (answer h 8 (done (settle false (suspendBuild s)))) := by
  have owner : suspendBuildCommand.owner [] s = done (settle false (suspendBuild s)) := if_pos building
  rw [exec_suspendBuild h ready, owner]

theorem exec_suspendBuild_idle (h : CmdHead) {s : State} (ready : s.life = .ready) (idle : s.build.state ≠ .building) :
    exec (.suspendBuild h []) s = .next (doneOnly h 8 s) := by
  have owner : suspendBuildCommand.owner [] s = done s := if_neg idle
  rw [exec_suspendBuild h ready, owner, answer_done]

/-- A suspended build is SUSPENDED without a retry wait, and the record is flagged (03 R46). -/
theorem suspendBuild_effect {s : State} (building : s.build.state = .building) :
    planOf (suspendBuild s) = { planOf s with state := .suspended, retry := none }
      ∧ (suspendBuild s).records.current.build =
          s.records.current.build.map (fun b => { b with suspended := true }) := by
  rcases suspendBuild_cases s with ⟨h, _⟩ | ⟨_, p, pressed, e⟩
  · exact absurd building h
  · have kept : planOf p = planOf s ∧ p.records = s.records := by
      rcases pressed with rfl | rfl
      · exact ⟨rfl, rfl⟩
      · simp
    obtain ⟨plan, records⟩ := kept
    rw [e, ← plan, ← records]
    exact ⟨rfl, rfl⟩

/-- A suspension presses a withdrawn group whose entry is PENDING (03 R46). -/
theorem suspendBuild_mode_pending {s : State} (building : s.build.state = .building) (out : withdrawn s = true)
    (pending : currentEntryState s = some .pending) :
    (suspendBuild s).thrust.mode = if s.cfg.pressForce ≤ s.inputs.force then .hold else .pressing := by
  rw [suspendBuild, if_pos building, pending]
  exact pressIfWithdrawn_mode out

/-- A suspension leaves the group of a CLAIMED entry alone (03 R46). -/
theorem suspendBuild_mode_claimed {s : State} (building : s.build.state = .building)
    (claimed : currentEntryState s = some .claimed) : (suspendBuild s).thrust.mode = s.thrust.mode := by
  rw [suspendBuild, if_pos building, claimed]
  rfl

theorem not_advance_of_withdrawn {s : State} (out : withdrawn s = true) : s.thrust.mode ≠ .advance := by
  intro e
  simp [withdrawn, e] at out

/-- What SUSPEND BUILD in BUILDING does (03 R48). -/
theorem suspendBuild_answers (h : CmdHead) {s : State} (ready : s.life = .ready)
    (building : s.build.state = .building) :
    Answers (.suspendBuild h []) s (fun t =>
      Answered h 8 .done s t ∧ t.build.state ≠ .building ∧ baseOf t = baseOf s
        ∧ (s.cfg.roles.erector = false →
            planOf t = { planOf s with state := .suspended, retry := none }
              ∧ t.records.current.build = s.records.current.build.map (fun b => { b with suspended := true })
              ∧ (withdrawn s = true → currentEntryState s = some .pending →
                  t.thrust.mode = if s.cfg.pressForce ≤ s.inputs.force then .hold else .pressing)
              ∧ (withdrawn s = true → currentEntryState s = some .claimed → t.thrust.mode = s.thrust.mode))) := by
  have suspendedBase := base_suspendBuild s
  have running : (suspendBuild s).running = true :=
    running_of_ready ((congrArg Base.life suspendedBase).trans ready)
  obtain ⟨base, _, alone⟩ := frame_answer h 8 
    (a := done (settle false (suspendBuild s))) (settle_frame false (suspendBuild s))
  obtain ⟨plan, part⟩ := suspendBuild_effect building
  refine ⟨_, exec_suspendBuild_taken h ready building, ?answer, ?state, base.trans suspendedBase, ?alone⟩
  case answer => exact answered_done_settle h 8 (evalKeeps_suspendBuild s).queue
  case state =>
    rw [answer_build]
    exact settle_not_building false running (suspendBuild_not_building s)
  case alone =>
    intro absent
    have absent' : (suspendBuild s).cfg.roles.erector = false := by
      rw [show (suspendBuild s).cfg = s.cfg from congrArg Base.cfg suspendedBase, absent]
    have inBuild : (suspendBuild s).build.state ≠ .ringOpen := by
      rw [show (suspendBuild s).build.state = .suspended from congrArg Build.state plan]
      simp
    obtain ⟨planKept, _⟩ := alone absent'
    refine ⟨planKept.trans plan, ?_, fun out pending => ?_, fun out claimed => ?_⟩
    · rw [answer_records, done, settle_buildPart_of_absent false absent', part]
    · have mode := suspendBuild_mode_pending building out pending
      rw [answer_thrust, done, settle_mode_in_build running false absent' inBuild, mode]
      rw [mode]; split <;> simp
    · have mode := suspendBuild_mode_claimed building claimed
      rw [answer_thrust, done, settle_mode_in_build running false absent' inBuild, mode]
      rw [mode]; exact not_advance_of_withdrawn out

/-! ### RESUME BUILD -/

theorem exec_resumeBuild (h : CmdHead) {s : State} (ready : s.life = .ready) :
    exec (.resumeBuild h []) s = .next (answer h 9 (resumeBuildCommand.owner [] s)) :=
  congrArg _ (takeCommand_ready (cmd := resumeBuildCommand) ready rfl rfl rfl rfl)

/-- RESUME BUILD by the build state (03 R49). -/
theorem resumeBuild_owner (args : List Nat) (s : State) :
    resumeBuildCommand.owner args s =
      (match s.build.state with
       | .ringOpen => refuse .busy s
       | .building => done s
       | .suspended => resumeOwner s) := rfl

theorem exec_resumeBuild_suspended (h : CmdHead) {s : State} (ready : s.life = .ready)
    (suspended : s.build.state = .suspended) :
    exec (.resumeBuild h []) s = .next (answer h 9 (resumeOwner s)) := by
  rw [exec_resumeBuild h ready, resumeBuild_owner, suspended]

/-- RESUME BUILD in SUSPENDED with an owner that refuses it. -/
theorem exec_resumeBuild_refused (h : CmdHead) {s : State} (ready : s.life = .ready)
    (suspended : s.build.state = .suspended) {r : Result} (notDone : r ≠ .done) (refused : resumeOwner s = refuse r s) :
    exec (.resumeBuild h []) s = .next (replyOnly h 9 r s) := by
  rw [exec_resumeBuild_suspended h ready suspended, refused, answer_refuse h 9 notDone]

theorem resumeOwner_busy {s : State} (held : currentEntryState s = some .claimed ∨ currentEntryState s = some .placed) :
    resumeOwner s = refuse .busy s := by
  unfold resumeOwner
  rcases held with e | e
  · rw [e]
  · rw [e]

theorem resumeOwner_empty {s : State} (empty : currentEntryState s = some .empty) :
    resumeOwner s = refuse .planMismatch s := by
  rw [resumeOwner, empty]

theorem resumeOwner_notReady {s : State} (pending : currentEntryState s = some .pending)
    (barred : s.view.trips ≠ [] ∨ s.view.blind = true
      ∨ (erectorStation s = some s.own ∧ s.erector.feederMismatch = true)) :
    resumeOwner s = refuse .notReady s := by
  rw [resumeOwner, pending]
  rcases barred with trip | blind | ⟨station, mismatch⟩
  · simp [tripInView, trip]
  · simp [blind]
  · simp [station, mismatch]

theorem resumeOwner_taken {s : State} (pending : currentEntryState s = some .pending) (untripped : s.view.trips = [])
    (seeing : s.view.blind = false) (fed : erectorStation s ≠ some s.own ∨ s.erector.feederMismatch = false) :
    resumeOwner s = done (settle false (resumeBuilding s)) := by
  rw [resumeOwner, pending]
  rcases fed with foreign | matching
  · simp [tripInView, untripped, seeing, foreign]
  · simp [tripInView, untripped, seeing, matching]

/-- The station with its build resumed, before the retraction decision (03 R49). -/
def buildResumed (s : State) : State :=
  { s with build := { s.build with state := .building, planMismatch := false, retry := none } }

theorem resumeBuilding_eq (s : State) : resumeBuilding s = decideRetract (buildResumed s) := rfl

/-- A group in HOLD withdraws as its build is resumed, its sector covered and the margin met (03 R49, R52). -/
theorem buildResumed_mode {s : State} (pending : currentEntryState s = some .pending) (hold : s.thrust.mode = .hold)
    (untripped : s.view.trips = []) (seeing : s.view.blind = false) (covered : ownCovered s = true)
    (margin : marginMet s = true) :
    (decideRetract (buildResumed s)).thrust.mode = if s.inputs.retracted then .clear else .retracting := by
  have covered' : ownCovered (buildResumed s) = true := covered
  have margin' : marginMet (buildResumed s) = true := margin
  rw [decideRetract_mode (s := buildResumed s) rfl pending hold untripped seeing rfl, covered', margin']
  rfl

/-- In a suspended build a group whose hold reasons follow their causes is not in ADVANCE (02 R25, R32). -/
theorem not_advance_of_holdsFollow {s : State} (follows : HoldsFollow s) (running : s.running = true)
    (build : s.build.state ≠ .ringOpen) : s.thrust.mode ≠ .advance := by
  rw [HoldsFollow, if_pos running] at follows
  obtain ⟨held, _, _, _, _, _, _, _, _, advances, _⟩ := follows
  intro advance
  have empty := advances advance
  simp [holdsEmpty, holdFlags, held, build] at empty

/-- What RESUME BUILD taken does (03 R49). -/
theorem resumeBuild_answers (h : CmdHead) {s : State} (ready : s.life = .ready) (suspended : s.build.state = .suspended)
    (pending : currentEntryState s = some .pending) (untripped : s.view.trips = []) (seeing : s.view.blind = false)
    (fed : erectorStation s ≠ some s.own ∨ s.erector.feederMismatch = false) :
    Answers (.resumeBuild h []) s (fun t =>
      Answered h 9 .done s t ∧ baseOf t = baseOf s
        ∧ (SequenceSettled s → HoldsFollow s → t.build.state ≠ .ringOpen)
        ∧ (s.cfg.roles.erector = false →
            planOf t = { planOf s with state := .building, planMismatch := false, retry := none }
              ∧ (s.thrust.mode = .hold → ownCovered s = true → marginMet s = true →
                  t.thrust.mode = if s.inputs.retracted then .clear else .retracting))) := by
  have running : (buildResumed s).running = true := running_of_ready (s := buildResumed s) ready
  have inBuild : (buildResumed s).build.state ≠ .ringOpen := by simp [buildResumed]
  obtain ⟨base, _, alone⟩ := frame_answer_decideRetract h 9 (buildResumed s)
  have taken : exec (.resumeBuild h []) s =
      .next (answer h 9 (done (settle false (decideRetract (buildResumed s))))) := by
    rw [exec_resumeBuild_suspended h ready suspended, resumeOwner_taken pending untripped seeing fed, resumeBuilding_eq]
  refine ⟨_, taken, ?answer, base, ?goesOn, ?alone⟩
  case answer => exact answered_done_settle h 9 (queueKept_same (by rw [decideRetract_bus]; rfl))
  case goesOn =>
    intro settled follows
    have resting := not_advance_of_holdsFollow follows (running_of_ready ready) (by simp [suspended])
    obtain ⟨goesOn, _⟩ := settle_decideRetract_keeps_build (e := buildResumed s) settled
      (running_of_ready ready) rfl rfl rfl inBuild resting
    rwa [answer_build]
  case alone =>
    intro absent
    obtain ⟨planKept, _⟩ := alone absent
    refine ⟨planKept, fun hold covered margin => ?_⟩
    have resting : (buildResumed s).thrust.mode ≠ .advance := by simp [buildResumed, hold]
    obtain ⟨mode, _⟩ := settle_decideRetract_of_absent running absent inBuild resting
    rw [answer_thrust]
    exact mode.trans (buildResumed_mode pending hold untripped seeing covered margin)

/-! ### ABANDON BUILD -/

theorem exec_abandonBuild (h : CmdHead) {s : State} (ready : s.life = .ready) :
    exec (.abandonBuild h []) s = .next (answer h 10 (abandonBuildCommand.owner [] s)) :=
  congrArg _ (takeCommand_ready (cmd := abandonBuildCommand) ready rfl rfl rfl rfl)

theorem exec_abandonBuild_taken (h : CmdHead) {s : State} (ready : s.life = .ready)
    (build : s.build.state ≠ .ringOpen) :
    exec (.abandonBuild h []) s = .next (answer h 10 (done (settle false (abandonBuild s)))) := by
  have owner : abandonBuildCommand.owner [] s = done (settle false (abandonBuild s)) := if_neg build
  rw [exec_abandonBuild h ready, owner]

theorem exec_abandonBuild_idle (h : CmdHead) {s : State} (ready : s.life = .ready)
    (ringOpen : s.build.state = .ringOpen) :
    exec (.abandonBuild h []) s = .next (doneOnly h 10 s) := by
  have owner : abandonBuildCommand.owner [] s = done s := if_pos ringOpen
  rw [exec_abandonBuild h ready, owner, answer_done]

/-- An abandoned build is OPEN without a plan, the record is flagged, and base and figures of the ring stand (03
R50). -/
theorem abandonBuild_effect (s : State) :
    planOf (abandonBuild s) =
        { planOf s with
          state := .ringOpen, entries := [], planRing := 0, index := 0, retry := none, planMismatch := false }
      ∧ (abandonBuild s).build.marginLow = false
      ∧ (abandonBuild s).records.current.build = s.records.current.build.map (fun b => { b with abandoned := true })
      ∧ baseOf (abandonBuild s) = baseOf s ∧ ringOf (abandonBuild s) = ringOf s
      ∧ (abandonBuild s).thrust.mode = (pressIfWithdrawn s).thrust.mode := by
  refine ⟨?plan, rfl, ?part, base_pressIfWithdrawn s, ring_pressIfWithdrawn s, rfl⟩
  case plan =>
    rw [← plan_pressIfWithdrawn s]
    rfl
  case part =>
    rw [← pressIfWithdrawn_records s]
    rfl

theorem withdrawn_abandonBuild (s : State) : withdrawn (abandonBuild s) = false := withdrawn_pressIfWithdrawn s

theorem evalKeeps_abandonBuild (s : State) : EvalKeeps s (abandonBuild s) :=
  (evalKeeps_pressIfWithdrawn s).trans (.same rfl rfl)

/-- What ABANDON BUILD in BUILDING or SUSPENDED does (03 R50). -/
theorem abandonBuild_answers (h : CmdHead) {s : State} (ready : s.life = .ready) (build : s.build.state ≠ .ringOpen) :
    Answers (.abandonBuild h []) s (fun t =>
      Answered h 10 .done s t ∧ baseOf t = baseOf s ∧ ringOf t = ringOf s
        ∧ planOf t =
            { planOf s with
              state := .ringOpen, planRing := t.build.planRing, entries := [], index := 0, retry := none,
              planMismatch := false }
        ∧ t.build.marginLow = false ∧ withdrawn t = false
        ∧ t.records.current.build = s.records.current.build.map (fun b => { b with abandoned := true })
        ∧ (withdrawn s = true → s.inputs.force < s.cfg.pressForce → t.thrust.mode = .pressing)) := by
  obtain ⟨plan, low, part, base, ring, mode⟩ := abandonBuild_effect s
  have running : (abandonBuild s).running = true := running_of_ready ((congrArg Base.life base).trans ready)
  obtain ⟨build', ring', part'⟩ := settle_ringOpen false (s := abandonBuild s) rfl low
  have moved := settle_mode_ringOpen running false (s := abandonBuild s) rfl
  obtain ⟨endBase, _⟩ := frame_answer h 10 (a := done (settle false (abandonBuild s)))
    (settle_frame false (abandonBuild s))
  refine ⟨_, exec_abandonBuild_taken h ready build, ?answer, endBase.trans base, ?ring, ?plan, ?low, ?pressed, ?part,
    ?mode⟩
  case answer => exact answered_done_settle h 10 (evalKeeps_abandonBuild s).queue
  case ring => exact (ring_answer h 10 _).trans (ring'.trans ring)
  case plan =>
    rw [planOf, answer_build, done, build']
    exact plan
  case low => rw [answer_build, done, build', low]
  case pressed =>
    have still := withdrawn_abandonBuild s
    unfold withdrawn at still ⊢
    rw [answer_thrust, done]
    rcases moved with same | ⟨_, hold | advance⟩
    · rwa [same]
    · simp [hold]
    · simp [advance]
  case part => rw [answer_records, done, part', part]
  case mode =>
    intro out force
    rw [pressIfWithdrawn_mode out, if_neg (by omega)] at mode
    rw [answer_thrust, done]
    rcases moved with same | ⟨resting, _⟩
    · rw [same, mode]
    · simp [mode] at resting

/-- Settles O22: each command is refused, idle or taken as its table gives; taken, the end of the event follows its
effect. -/
theorem buildSuspendedResumedAbandoned : Obligations.BuildSuspendedResumedAbandoned := by
  refine ⟨fun h s => suspendBuild_answers h, fun h s => exec_suspendBuild_idle h, ?resumeOpen, ?resumeBuilding, ?busy,
    ?empty, ?notReady, fun h s => resumeBuild_answers h, fun h s => exec_abandonBuild_idle h,
    fun h s => abandonBuild_answers h⟩
  case resumeOpen =>
    intro h s ready ringOpen
    rw [exec_resumeBuild h ready, resumeBuild_owner, ringOpen]
    exact congrArg _ (answer_refuse h 9 (by simp) s)
  case resumeBuilding =>
    intro h s ready building
    rw [exec_resumeBuild h ready, resumeBuild_owner, building]
    exact congrArg _ (answer_done h 9 s)
  case busy =>
    exact fun h s ready suspended held => exec_resumeBuild_refused h ready suspended (by simp) (resumeOwner_busy held)
  case empty =>
    exact fun h s ready suspended empty =>
      exec_resumeBuild_refused h ready suspended (by simp) (resumeOwner_empty empty)
  case notReady =>
    exact fun h s ready suspended pending barred =>
      exec_resumeBuild_refused h ready suspended (by simp) (resumeOwner_notReady pending barred)

end Sys2Proof.Machine
end

section
/-! PROOF. What the evaluation that ends an event does to the drive: the requests to the group and to the build unit leave
it alone, and a drive that is neither STARTING nor RUNNING keeps its state, for 05 R80 stops those two alone.
`settle_drive_resting` says it once for all statements. -/

namespace Sys2Proof.Machine

open Sys2Proof

/-! ### Operations that leave the drive alone -/

@[simp] theorem pressRequest_drive (s : State) : (pressRequest s).drive = s.drive := by
  rcases pressRequest_cases s with e | e | ⟨_, e⟩ <;> rw [e] <;> rfl

@[simp] theorem pressIfWithdrawn_drive (s : State) : (pressIfWithdrawn s).drive = s.drive := by
  rcases pressIfWithdrawn_cases s with e | e | e <;> rw [e] <;> rfl

@[simp] theorem abortWithdrawal_drive (s : State) : (abortWithdrawal s).drive = s.drive := pressRequest_drive s

@[simp] theorem decideRetract_drive (s : State) : (decideRetract s).drive = s.drive := by
  rcases decideRetract_cases s with e | ⟨_, _, _, _, _, _, _, _, e⟩ <;> rw [e]; rfl

@[simp] theorem suspendBuild_drive (s : State) : (suspendBuild s).drive = s.drive := by
  rcases suspendBuild_cases s with ⟨_, e⟩ | ⟨_, p, rfl | rfl, e⟩
  · rw [e]
  · rw [e]; rfl
  · rw [e]; exact pressIfWithdrawn_drive s

@[simp] theorem pressPassed_drive (s : State) : (pressPassed s).drive = s.drive := by
  rcases pressPassed_cases s with e | ⟨_, _, _, _, e⟩ <;> rw [e]; rfl

@[simp] theorem sequencePassed_drive (s : State) : (sequencePassed s).drive = s.drive := by
  rcases sequencePassed_cases s with e | ⟨_, _, _, _, e⟩ <;> rw [e]; rfl

@[simp] theorem judgeEmpty_drive (s : State) : (judgeEmpty s).drive = s.drive := by
  unfold judgeEmpty
  split
  · simp
  · rfl

@[simp] theorem catchUp_drive (j : Nat) (s : State) : (catchUp j s).drive = s.drive := by simp [catchUp]

@[simp] theorem releaseEntry_drive (s : State) : (releaseEntry s).drive = s.drive := by
  unfold releaseEntry; dsimp only
  repeat' split
  all_goals simp

@[simp] theorem placeEntry_drive (s : State) : (placeEntry s).drive = s.drive := by
  unfold placeEntry; dsimp only
  split
  all_goals simp

@[simp] theorem leaveStandby_drive (s : State) : (leaveStandby s).drive = s.drive := by
  unfold leaveStandby
  repeat' split
  all_goals rfl

@[simp] theorem updateRingAdvance_drive (s : State) : (updateRingAdvance s).drive = s.drive := by
  unfold updateRingAdvance
  split
  all_goals rfl

@[simp] theorem judgeLinePressure_drive (s : State) : (judgeLinePressure s).drive = s.drive := by
  unfold judgeLinePressure
  split
  · exact tripLine_drive s
  · rfl

/-! ### A drive that is neither STARTING nor RUNNING -/

section
variable {d : DriveState} (rests : d ≠ .starting ∧ d ≠ .running) {s : State} (h : s.drive.state = d)
include rests h

theorem driveEval_resting : driveEval s = s := by
  obtain ⟨starting, running⟩ := rests
  simp [driveEval, h, starting, running]

theorem unitsEval_drive_resting (lim : Bool) : (unitsEval lim s).drive.state = d := by
  rw [unitsEval_drive, driveEval_resting rests h, h]

/-- A ring close evaluates the units, and of the drive opens the ring's figures alone (09 R144). -/
theorem closeRing_drive_resting (r : Nat) (cause : OpeningCause) : (closeRing r cause s).drive.state = d := by
  unfold closeRing; dsimp only
  rw [judgeLinePressure_drive, injectionEval_drive]
  exact unitsEval_drive_resting rests (by simpa using h) false

theorem setEntry_drive_resting (e : PlanEntry) : (setEntry e s).drive.state = d := by
  unfold setEntry; dsimp only
  split
  · exact closeRing_drive_resting rests (by simpa using h) _ _
  · simpa using h

/-- Of the actions only SET can reach the drive, by the ring it closes (03 R60, R61). -/
theorem applyAction_drive_resting (a : StepAction) : (applyAction a s).drive.state = d := by
  unfold applyAction
  split
  · exact h
  · split
    · exact setEntry_drive_resting rests h _
    all_goals simpa using h

theorem takeStep_drive_resting (a : StepAction) (r i : Nat) : (takeStep a r i s).drive.state = d := by
  unfold takeStep judgeStep
  rw [decideRetract_drive]
  repeat' split
  · exact h
  · exact h
  · exact h
  · exact h
  · exact h
  · exact applyAction_drive_resting rests h a
  · exact applyAction_drive_resting rests (by simpa using h) a

theorem issueStep_drive_resting (q : SeqState) (a : StepAction) (w : Working) :
    (issueStep a w (setSeq q s)).drive.state = d :=
  takeStep_drive_resting rests (by simpa using h) a w.ring w.index

theorem placingTest_drive_resting (w : Working) : (placingTest w s).drive.state = d := by
  unfold placingTest
  split
  · exact h
  · split
    · exact issueStep_drive_resting rests h _ _ w
    · simpa using h

theorem seqStep_drive_resting : (seqStep s).drive.state = d := by
  have stands (q : SeqState) : (setSeq q s).drive.state = d := h
  have issues := issueStep_drive_resting rests h
  unfold seqStep
  split
  case h_1 => simpa using h
  case h_2 => exact stands _
  case h_3 w _ _ =>
    repeat' split
    · exact stands _
    · exact placingTest_drive_resting rests h w
    · exact h
  case h_4 w _ _ =>
    repeat' split
    · exact issues _ _ w
    · exact stands _
    · exact issues _ _ w
    · exact h
    · exact issues _ _ w
  case h_5 w _ _ =>
    repeat' split
    · exact stands _
    · exact issues _ _ w
    · exact h

theorem seqSteps_drive_resting (n : Nat) : (seqSteps n s).drive.state = d := by
  induction n generalizing s with
  | zero => exact h
  | succ n ih =>
    have stepped := seqStep_drive_resting rests h
    unfold seqSteps
    split
    · exact stepped
    · exact ih stepped

theorem erectorEval_drive_resting : (erectorEval s).drive.state = d := by
  unfold erectorEval
  split
  · exact seqSteps_drive_resting rests h 8
  · exact h

/-- The end of an event starts no drive, and stops none that is neither STARTING nor RUNNING (05 R80, R81). -/
theorem settle_drive_resting (lim : Bool) : (settle lim s).drive.state = d := by
  unfold settle
  split
  · rw [setOutputs_drive, syncRecord_drive, injectionEval_drive]
    exact unitsEval_drive_resting rests
      (erectorEval_drive_resting rests (unitsEval_drive_resting rests h lim)) lim
  · exact h

end

end Sys2Proof.Machine
end

section
/-! PROOF. CLEAR TRIP with unit DRIVE and with unit CAB STOP (05 R89, 01 R16): the checks, the branches of the owner of
unit DRIVE, and the end of the event on a trip memory without the pair. -/

namespace Sys2Proof.Machine

open Sys2Proof

/-! ### The checks -/

/-- CLEAR TRIP with unit DRIVE in READY needs the DRIVE role and no more (11 R162). -/
theorem exec_clearTripDrive (h : CmdHead) {s : State} (ready : s.life = .ready) (role : s.cfg.roles.drive = true) :
    exec (.clearTripDrive h [1]) s = .next (answer h 4 (clearDriveOwner s)) :=
  congrArg _ (takeCommand_ready (cmd := clearTripCommand) ready (splitFields_last 1 1) rfl
    (by simp [clearTripCommand, role]) rfl)

theorem exec_clearTripDrive_absent (h : CmdHead) {s : State} (ready : s.life = .ready)
    (role : s.cfg.roles.drive = false) :
    exec (.clearTripDrive h [1]) s = .next (replyOnly h 4 .notApplicable s) := by
  have fields : splitFields (clearTripCommand.sizes [1]) [1] = some [1] := splitFields_last 1 1
  have needs : clearTripCommand.needs [1] s.cfg.roles = false := by simp [clearTripCommand, arg, role]
  have permitted : clearTripCommand.permitted h.source [1] = true := rfl
  show Host.Outcome.next (takeCommand clearTripCommand h [1] s) = _
  rw [takeCommand_checks (by simp [ready]) fields h, if_neg (by simp [permitted]), if_neg (by simp [ready]),
    if_pos needs]
  rfl

/-- CLEAR TRIP with unit CAB STOP in READY is permitted to the cab console (11 R162). -/
theorem exec_clearTripCabStop (h : CmdHead) {s : State} (ready : s.life = .ready) (cab : h.source = .cab) :
    exec (.clearTripCabStop h [2]) s = .next (answer h 4 (clearCabStopOwner s)) :=
  congrArg _ (takeCommand_ready (cmd := clearTripCommand) ready (splitFields_last 1 2)
    (by simp [clearTripCommand, cab]) rfl rfl)

/-! ### The owner of unit DRIVE -/

theorem clearDriveOwner_rearms {s : State} (stalled : s.drive.state = .stalled) (slow : s.inputs.speed < 5)
    (low : s.inputs.torque < 100) :
    clearDriveOwner s = done (settle false (removeTrip (s.own, .stall) (driveOff s))) := by
  rw [clearDriveOwner, if_pos stalled, if_pos (by simp [slow, low])]

theorem clearDriveOwner_busy {s : State} (stalled : s.drive.state = .stalled)
    (turns : 5 ≤ s.inputs.speed ∨ 100 ≤ s.inputs.torque) : clearDriveOwner s = refuse .busy s := by
  rw [clearDriveOwner, if_pos stalled, if_neg (by simp; omega)]

theorem clearDriveOwner_idle {s : State} (armed : s.drive.state ≠ .stalled) : clearDriveOwner s = done s :=
  if_neg armed

/-! ### The end of the event on a trip memory without the pair -/

@[simp] theorem removeTrip_bus (p : TripPair) (s : State) : (removeTrip p s).bus = s.bus := by rw [removeTrip_eq]

@[simp] theorem removeTrip_drive (p : TripPair) (s : State) : (removeTrip p s).drive = s.drive := by rw [removeTrip_eq]

/-- The trip memory without the pair is the whole effect of its removal (01 R16). -/
theorem frame_removeTrip (lim : Bool) (p : TripPair) (s : State) :
    FrameOf { s with view := { s.view with trips := s.view.trips.filter (fun q => q ≠ p) } }
      (settle lim (removeTrip p s)) := by
  have frame := settle_frame lim (removeTrip p s)
  nth_rw 1 [removeTrip_eq] at frame
  exact frame

theorem settle_removeTrip_trips (lim : Bool) (p : TripPair) (s : State) :
    p ∉ (settle lim (removeTrip p s)).view.trips := by
  obtain ⟨base, _⟩ := frame_removeTrip lim p s
  have trips : (settle lim (removeTrip p s)).view.trips = s.view.trips.filter (fun q => q ≠ p) :=
    congrArg (fun b => b.view.trips) base
  rw [trips]
  simp

/-- A re-armed drive is OFF and ends the event so (05 R89). -/
theorem settle_rearmed_drive (lim : Bool) (p : TripPair) (s : State) :
    (settle lim (removeTrip p (driveOff s))).drive.state = .off :=
  settle_drive_resting (by simp) (by rw [removeTrip_drive, driveOff_drive_state]) lim

/-- Answering DONE to an effect that takes a pair from the trip memory and leaves the queue alone (11 R164). -/
theorem answered_removeTrip (h : CmdHead) (n : Nat) (p : TripPair) {s e : State} (queue : e.bus.queue = s.bus.queue) :
    Answered h n .done s (answer h n (done (settle false (removeTrip p e)))) := by
  have kept : QueueKept s.bus.queue (removeTrip p e) := queueKept_same (by rw [removeTrip_bus, queue])
  exact answered_done_settle h n kept

/-- Settles O19: the effect is the drive OFF and the pair gone, and a drive that is OFF rests as the event ends. -/
theorem driveAndCabTripsCleared : Obligations.DriveAndCabTripsCleared := by
  refine ⟨fun h s ready role stalled slow low => ?rearm, fun h s ready role stalled turns => ?busy,
    fun h s ready role armed => ?idle, fun h s ready absent => exec_clearTripDrive_absent h ready absent,
    fun h s ready cab => ?cabStop⟩
  case busy =>
    rw [exec_clearTripDrive h ready role, clearDriveOwner_busy stalled turns, answer_refuse h 4 (by simp)]
  case idle => rw [exec_clearTripDrive h ready role, clearDriveOwner_idle armed, answer_done]
  case rearm =>
    have answered : exec (.clearTripDrive h [1]) s =
        .next (answer h 4 (done (settle false (removeTrip (s.own, .stall) (driveOff s))))) := by
      rw [exec_clearTripDrive h ready role, clearDriveOwner_rearms stalled slow low]
    refine ⟨_, answered, ?off, ?gone, frame_answer h 4 (frame_removeTrip false _ (driveOff s)),
      answered_removeTrip h 4 _ rfl⟩
    case off => rw [answer_drive]; exact settle_rearmed_drive false _ s
    case gone => rw [answer_view]; exact settle_removeTrip_trips false _ _
  case cabStop =>
    exact ⟨_, exec_clearTripCabStop h ready cab, frame_answer h 4 (frame_removeTrip false _ s),
      answered_removeTrip h 4 _ rfl⟩

end Sys2Proof.Machine
end

section
/-! PROOF. The settings that wait for the ring close (08 R126, 09 R143): a command that passes its checks and is answered
DEFERRED or CLAMPED always has its REPLY, and a command of a unit the station lacks has no effect (11 R162, R164). -/

namespace Sys2Proof.Machine

open Sys2Proof

/-! ### Checks and answers of a setpoint command -/

/-- At a READY station without the unit, a command that is permitted is refused NOT APPLICABLE (11 R162). -/
theorem takeCommand_notApplicable {cmd : Command} {h : CmdHead} {ops : List Byte} {args : List Nat} {s : State}
    (ready : s.life = .ready) (fields : splitFields (cmd.sizes ops) ops = some args)
    (permitted : cmd.permitted h.source args = true) (needs : cmd.needs args s.cfg.roles = false) :
    takeCommand cmd h ops s = replyOnly h cmd.number .notApplicable s := by
  rw [takeCommand_checks (by simp [ready]) fields h, if_neg (by simp [permitted]), if_neg (by simp [ready]),
    if_pos needs]

theorem clampedOr_ne_done {owner : Result} (h : owner ≠ .done) (l : List (Nat × Nat)) : clampedOr owner l ≠ .done := by
  induction l with
  | nil => exact h
  | cons pair rest ih =>
    unfold clampedOr
    split
    · simp
    · split
      · simp
      · exact ih

/-- A setpoint that does not act at once is answered with a REPLY in every case (11 R163, R164). -/
theorem answer_deferred (h : CmdHead) (n : Nat) (l : List (Nat × Nat)) (s : State) :
    answer h n { result := setpointResult .deferred l, state := s } = replyOnly h n (clampedOr .deferred l) s := by
  rw [setpointResult_eq (by simp)]
  exact answer_refuse h n (clampedOr_ne_done (by simp) l) s

theorem splitFields_words_two (a b : Nat) :
    splitFields [2, 2] (beBytes 2 a ++ beBytes 2 b) = some [a % 65536, b % 65536] := by
  rw [splitFields_beBytes, splitFields_last]
  rfl

theorem splitFields_words_four (a b c d : Nat) :
    splitFields [2, 2, 2, 2] (beBytes 2 a ++ beBytes 2 b ++ beBytes 2 c ++ beBytes 2 d) =
      some [a % 65536, b % 65536, c % 65536, d % 65536] := by
  simp only [List.append_assoc]
  rw [splitFields_beBytes, splitFields_beBytes, splitFields_words_two]
  rfl

/-! ### The pending slots -/

/-- The pending slot of the grout unit holds `g`, and nothing else is changed (08 R126). -/
def withWaitingGrout (g : GroutSet) (s : State) : State := { s with grout := { s.grout with waiting := some g } }

/-- The pending slot of the ring record unit holds `l`, and nothing else is changed (09 R143). -/
def withWaitingLimits (l : Limits) (s : State) : State :=
  { s with records := { s.records with waitingLimits := some l } }

theorem setGrout_owner (o c r l : Nat) (s : State) :
    setGroutCommand.owner [o, c, r, l] s =
      { result :=
          setpointResult .deferred
            [(o, min o s.cfg.w), (c, min c s.cfg.w), (r, max 1000 (min r 2000)), (l, max 50 (min l 800))]
        state :=
          withWaitingGrout
            { opens := min o s.cfg.w, closes := min c s.cfg.w, ratio := max 1000 (min r 2000)
              limit := max 50 (min l 800) } s } := by
  have atMost (v : Nat) : clamp 0 s.cfg.w v = min v s.cfg.w := Nat.zero_max _
  rw [← atMost o, ← atMost c]
  rfl

theorem setBalanceLimits_owner (lo up : Nat) (s : State) :
    setBalanceLimitsCommand.owner [lo, up] s =
      { result :=
          setpointResult .deferred
            [(lo, max 500 (min lo 2000)), (up, max (max 500 (min up 2000)) (max 500 (min lo 2000)))]
        state :=
          withWaitingLimits
            { lower := max 500 (min lo 2000), upper := max (max 500 (min up 2000)) (max 500 (min lo 2000)) } s } := rfl

/-- Settles O38: each command passes its checks on the operands as sent, and its owner writes the pending slot alone. -/
theorem pendingSettingsDeferred : Obligations.PendingSettingsDeferred := by
  refine ⟨fun h o c r l s ho hc hr hl ready line => ?grout, fun h lo up s hlo hup ready screw => ?limits,
    fun h o c r l s ready absent => ?noLine, fun h lo up s ready absent => ?noScrew⟩
  case grout =>
    have fields := splitFields_words_four o c r l
    simp only [Nat.mod_eq_of_lt ho, Nat.mod_eq_of_lt hc, Nat.mod_eq_of_lt hr, Nat.mod_eq_of_lt hl] at fields
    have taken := takeCommand_ready (cmd := setGroutCommand) (h := h) ready fields rfl line rfl
    rw [setGrout_owner, answer_deferred] at taken
    exact congrArg _ taken
  case limits =>
    have fields := splitFields_words_two lo up
    simp only [Nat.mod_eq_of_lt hlo, Nat.mod_eq_of_lt hup] at fields
    have taken := takeCommand_ready (cmd := setBalanceLimitsCommand) (h := h) ready fields rfl screw rfl
    rw [setBalanceLimits_owner, answer_deferred] at taken
    exact congrArg _ taken
  case noLine =>
    exact congrArg _
      (takeCommand_notApplicable (cmd := setGroutCommand) ready (splitFields_words_four o c r l) rfl absent)
  case noScrew =>
    exact congrArg _
      (takeCommand_notApplicable (cmd := setBalanceLimitsCommand) ready (splitFields_words_two lo up) rfl absent)

end Sys2Proof.Machine
end

section
/-! PROOF. What the evaluation that ends an event does to the grout line and to the hold reason GROUT: the injection
condition moves a line between ARMED and INJECTING alone (08 R123), so a line in any other state keeps it, and the reason
stands exactly while the grout-ready count is below the minimum (02 R34). -/

namespace Sys2Proof.Machine

open Sys2Proof

/-! ### Operations that leave the grout unit alone -/

@[simp] theorem pressRequest_grout (s : State) : (pressRequest s).grout = s.grout := by
  rcases pressRequest_cases s with e | e | ⟨_, e⟩ <;> rw [e] <;> rfl

@[simp] theorem pressIfWithdrawn_grout (s : State) : (pressIfWithdrawn s).grout = s.grout := by
  rcases pressIfWithdrawn_cases s with e | e | e <;> rw [e] <;> rfl

@[simp] theorem abortWithdrawal_grout (s : State) : (abortWithdrawal s).grout = s.grout := pressRequest_grout s

@[simp] theorem decideRetract_grout (s : State) : (decideRetract s).grout = s.grout := by
  rcases decideRetract_cases s with e | ⟨_, _, _, _, _, _, _, _, e⟩ <;> rw [e]; rfl

@[simp] theorem suspendBuild_grout (s : State) : (suspendBuild s).grout = s.grout := by
  rcases suspendBuild_cases s with ⟨_, e⟩ | ⟨_, p, rfl | rfl, e⟩
  · rw [e]
  · rw [e]; rfl
  · rw [e]; exact pressIfWithdrawn_grout s

@[simp] theorem pressPassed_grout (s : State) : (pressPassed s).grout = s.grout := by
  rcases pressPassed_cases s with e | ⟨_, _, _, _, e⟩ <;> rw [e]; rfl

@[simp] theorem sequencePassed_grout (s : State) : (sequencePassed s).grout = s.grout := by
  rcases sequencePassed_cases s with e | ⟨_, _, _, _, e⟩ <;> rw [e]; rfl

@[simp] theorem judgeEmpty_grout (s : State) : (judgeEmpty s).grout = s.grout := by
  unfold judgeEmpty
  split
  · simp
  · rfl

@[simp] theorem catchUp_grout (j : Nat) (s : State) : (catchUp j s).grout = s.grout := by simp [catchUp]

@[simp] theorem releaseEntry_grout (s : State) : (releaseEntry s).grout = s.grout := by
  unfold releaseEntry; dsimp only
  repeat' split
  all_goals simp

@[simp] theorem placeEntry_grout (s : State) : (placeEntry s).grout = s.grout := by
  unfold placeEntry; dsimp only
  split
  all_goals simp

@[simp] theorem leaveStandby_grout (s : State) : (leaveStandby s).grout = s.grout := by
  unfold leaveStandby
  repeat' split
  all_goals rfl

@[simp] theorem updateRingAdvance_grout (s : State) : (updateRingAdvance s).grout = s.grout := by
  unfold updateRingAdvance
  split
  all_goals rfl

@[simp] theorem driveEval_grout (s : State) : (driveEval s).grout = s.grout := by
  unfold driveEval
  split
  all_goals rfl

@[simp] theorem screwEval_grout (s : State) : (screwEval s).grout = s.grout := by
  unfold screwEval setScrew pressureBlindEval; dsimp only [supportEval]
  repeat' split
  all_goals rfl

@[simp] theorem trainEval_grout (s : State) : (trainEval s).grout = s.grout := by
  unfold trainEval setPace; dsimp only
  repeat' split
  all_goals rfl

@[simp] theorem advanceEval_grout (s : State) : (advanceEval s).grout = s.grout := by
  unfold advanceEval
  repeat' split
  all_goals rfl

@[simp] theorem unitsEval_grout (lim : Bool) (s : State) : (unitsEval lim s).grout = s.grout := by
  unfold unitsEval
  cases lim <;> simp

/-! ### The injection condition -/

@[simp] theorem tailEval_grout_line (s : State) : (tailEval s).grout.line = s.grout.line := by
  unfold tailEval
  repeat' split
  all_goals rfl

/-- The injection condition leaves a line in its state or moves it between the two states that are ready (08 R123). -/
theorem injectionEval_line_cases (s : State) :
    (injectionEval s).grout.line = s.grout.line
      ∨ (lineReady s.grout.line = true ∧ lineReady (injectionEval s).grout.line = true) := by
  have tail := tailEval_grout_line s
  unfold injectionEval; dsimp only
  split
  · next armed =>
    split
    · exact .inr ⟨by rw [← tail, armed]; rfl, rfl⟩
    · exact .inl tail
  · next injecting =>
    split
    · exact .inl tail
    · exact .inr ⟨by rw [← tail, injecting]; rfl, rfl⟩
  · exact .inl tail

@[simp] theorem lineReady_injectionEval (s : State) : lineReady (injectionEval s).grout.line = lineReady s.grout.line := by
  rcases injectionEval_line_cases s with same | ⟨before, after⟩
  · rw [same]
  · rw [before, after]

/-! ### A line that is not ready -/

section
variable {l : LineState} (rests : lineReady l = false) {s : State} (h : s.grout.line = l)
include rests h

theorem injectionEval_line_resting : (injectionEval s).grout.line = l := by
  rcases injectionEval_line_cases s with same | ⟨ready, _⟩
  · rw [same, h]
  · simp [h, rests] at ready

theorem judgeLinePressure_line_resting : (judgeLinePressure s).grout.line = l := by
  simp [judgeLinePressure, h, rests]

/-- Of the line a ring close judges injection and pressure alone, which only a ready line obeys (08 R123, R125, R133). -/
theorem closeRing_line_resting (r : Nat) (cause : OpeningCause) : (closeRing r cause s).grout.line = l := by
  refine judgeLinePressure_line_resting rests (injectionEval_line_resting rests ?_)
  simpa using h

theorem setEntry_line_resting (e : PlanEntry) : (setEntry e s).grout.line = l := by
  unfold setEntry; dsimp only
  split
  · exact closeRing_line_resting rests (by simpa using h) _ _
  · simpa using h

/-- Of the actions only SET can reach the line, by the ring it closes (03 R60, R61). -/
theorem applyAction_line_resting (a : StepAction) : (applyAction a s).grout.line = l := by
  unfold applyAction
  split
  · exact h
  · split
    · exact setEntry_line_resting rests h _
    all_goals simpa using h

theorem judgeStep_line_resting (a : StepAction) (r i : Nat) : (judgeStep a r i s).grout.line = l := by
  have applied := applyAction_line_resting rests h a
  have caughtUp := applyAction_line_resting rests (s := catchUp i s) (by simpa using h) a
  unfold judgeStep
  repeat' split
  all_goals assumption

theorem issueStep_line_resting (q : SeqState) (a : StepAction) (w : Working) :
    (issueStep a w (setSeq q s)).grout.line = l := by
  unfold issueStep takeStep
  rw [decideRetract_grout]
  exact judgeStep_line_resting rests (by simpa using h) a w.ring w.index

theorem placingTest_line_resting (w : Working) : (placingTest w s).grout.line = l := by
  unfold placingTest
  split
  · exact h
  · split
    · exact issueStep_line_resting rests h _ _ w
    · simpa using h

theorem seqStep_line_resting : (seqStep s).grout.line = l := by
  have stands (q : SeqState) : (setSeq q s).grout.line = l := h
  have issues := issueStep_line_resting rests h
  unfold seqStep
  split
  case h_1 => simpa using h
  case h_2 => exact stands _
  case h_3 w _ _ =>
    repeat' split
    · exact stands _
    · exact placingTest_line_resting rests h w
    · exact h
  case h_4 w _ _ =>
    repeat' split
    · exact issues _ _ w
    · exact stands _
    · exact issues _ _ w
    · exact h
    · exact issues _ _ w
  case h_5 w _ _ =>
    repeat' split
    · exact stands _
    · exact issues _ _ w
    · exact h

theorem seqSteps_line_resting (n : Nat) : (seqSteps n s).grout.line = l := by
  induction n generalizing s with
  | zero => exact h
  | succ n ih =>
    have stepped := seqStep_line_resting rests h
    unfold seqSteps
    split
    · exact stepped
    · exact ih stepped

theorem erectorEval_line_resting : (erectorEval s).grout.line = l := by
  unfold erectorEval
  split
  · exact seqSteps_line_resting rests h 8
  · exact h

/-- The end of an event leaves a line alone that is neither ARMED nor INJECTING (08 R121, R123). -/
theorem settle_line_resting (lim : Bool) : (settle lim s).grout.line = l := by
  have units (t : State) : (unitsEval lim t).grout.line = t.grout.line := by rw [unitsEval_grout]
  unfold settle
  split
  · rw [setOutputs_grout, syncRecord_grout]
    refine injectionEval_line_resting rests ?_
    rw [units]
    refine erectorEval_line_resting rests ?_
    rw [units, h]
  · exact h

end

/-! ### The hold reason GROUT -/

/-- The reason GROUT stands exactly while the grout-ready count is below the minimum (02 R34). -/
def GroutReasonFollows (s : State) : Prop := s.thrust.holds.grout = decide (groutReady s < s.grout.gmin)

@[simp] theorem freshPeers_injectionEval (s : State) : freshPeers (injectionEval s) = freshPeers s := by
  unfold injectionEval tailEval; dsimp only
  repeat' split
  all_goals rfl

@[simp] theorem groutReady_injectionEval (s : State) : groutReady (injectionEval s) = groutReady s := by
  simp [groutReady]

theorem groutReasonFollows_unitsEval (lim : Bool) (s : State) : GroutReasonFollows (unitsEval lim s) := by
  obtain ⟨p, e, _, _⟩ := unitsEval_eq_advanceEval lim s
  have moded (m : GroupMode) : GroutReasonFollows (setMode m (holdsEval p)) := rfl
  rw [e]
  unfold advanceEval
  repeat' split
  · exact moded .advance
  · rfl
  · rfl
  · exact moded .hold
  · rfl

theorem groutReasonFollows_injectionEval {s : State} (h : GroutReasonFollows s) :
    GroutReasonFollows (injectionEval s) := by
  have gmin : (injectionEval s).grout.gmin = s.grout.gmin := congrArg Base.gmin (base_injectionEval s)
  unfold GroutReasonFollows
  rw [injectionEval_thrust, groutReady_injectionEval, gmin, h]

/-- Every event ends with the reason GROUT evaluated on the line and the peers it leaves (02 R34). -/
theorem groutReasonFollows_settle {s : State} (running : s.running = true) (lim : Bool) :
    GroutReasonFollows (settle lim s) := by
  have shown : ∀ t, GroutReasonFollows t → GroutReasonFollows (setOutputs (syncRecord t)) := fun _ ht => ht
  unfold settle
  rw [if_pos running]
  exact shown _ (groutReasonFollows_injectionEval (groutReasonFollows_unitsEval lim _))

end Sys2Proof.Machine
end

section
/-! PROOF. SET GROUT TIMES with its running timers, and SET GROUT MINIMUM (08 R134, R135): each command's effect before the
evaluation that ends the event, a timer judged on its new value, and what of the grout unit that evaluation leaves. -/

namespace Sys2Proof.Machine

open Sys2Proof

/-! ### What the end of the event leaves of the grout unit -/

@[simp] theorem answer_grout (h : CmdHead) (n : Nat) (a : Answer) : (answer h n a).grout = a.state.grout := by
  obtain ⟨q, shape⟩ := answer_shape h n a
  rw [shape]

@[simp] theorem settle_potStart (lim : Bool) (s : State) : (settle lim s).grout.potStart = s.grout.potStart :=
  congrArg Base.potStart (base_settle lim s)

@[simp] theorem settle_flushStart (lim : Bool) (s : State) : (settle lim s).grout.flushStart = s.grout.flushStart :=
  congrArg Base.flushStart (base_settle lim s)

@[simp] theorem settle_setting (lim : Bool) (s : State) : (settle lim s).grout.setting = s.grout.setting :=
  congrArg Base.setting (base_settle lim s)

@[simp] theorem settle_gmin (lim : Bool) (s : State) : (settle lim s).grout.gmin = s.grout.gmin :=
  congrArg Base.gmin (base_settle lim s)

theorem groutReasonFollows_answer (h : CmdHead) (n : Nat) {a : Answer} (follows : GroutReasonFollows a.state) :
    GroutReasonFollows (answer h n a) := by
  obtain ⟨q, shape⟩ := answer_shape h n a
  rw [shape]
  exact follows

/-! ### A timer judged on its new value -/

theorem judgeFlush_running {s : State}
    (h : ∀ t, s.grout.flushStart = some t → s.clock.now < t + s.grout.flushTime * 1000) : judgeFlush s = s := by
  unfold judgeFlush
  split
  · next t started => simp [reached, h t started]
  · rfl

theorem judgeFlush_due {s : State} {t : Nat} (started : s.grout.flushStart = some t)
    (due : t + s.grout.flushTime * 1000 ≤ s.clock.now) : judgeFlush s = endFlush s := by
  simp [judgeFlush, started, reached, due]

theorem judgePotLife_running {s : State}
    (h : ∀ t, s.grout.potStart = some t → s.clock.now < t + s.grout.potLife * 1000) : judgePotLife s = s := by
  unfold judgePotLife
  split
  · next t started => simp [reached, h t started]
  · rfl

theorem judgePotLife_due {s : State} {t : Nat} (started : s.grout.potStart = some t)
    (due : t + s.grout.potLife * 1000 ≤ s.clock.now) : judgePotLife s = potLifeExpires s := by
  simp [judgePotLife, started, reached, due]

/-- The pot life of an ARMED or INJECTING line ends in a flush (08 R132). -/
theorem potLifeExpires_ready {s : State} (ready : s.grout.line = .armed ∨ s.grout.line = .injecting) :
    potLifeExpires s = startFlush s := by
  rcases ready with line | line
  · simp [potLifeExpires, line]
  · simp [potLifeExpires, line]

/-- LINE SETTING raised and the pot-life timer idle (08 R132). -/
def raiseSetting (s : State) : State := { s with grout := { s.grout with setting := true, potStart := none } }

/-- The pot life of a TRIPPED line ends with LINE SETTING raised (08 R132). -/
theorem potLifeExpires_tripped {s : State} (line : s.grout.line = .tripped) : potLifeExpires s = raiseSetting s := by
  unfold raiseSetting
  simp [potLifeExpires, line]

/-! ### SET GROUT TIMES -/

/-- The station with the clamped values of a SET GROUT TIMES, before its timers are judged on them (08 R134). -/
def withTimes (p f : Nat) (s : State) : State :=
  { s with grout := { s.grout with potLife := max 300 (min p 7200), flushTime := max 10 (min f 600) } }

/-- A SET GROUT TIMES that is taken: the values, then the timers judged on them, then the units (08 R134). -/
def timesAnswer (p f : Nat) (s : State) : Answer :=
  { result := clampedOr .done [(p, max 300 (min p 7200)), (f, max 10 (min f 600))]
    state := settle false (judgePotLife (judgeFlush (withTimes p f s))) }

theorem setGroutTimes_owner (p f : Nat) (s : State) : setGroutTimesCommand.owner [p, f] s = timesAnswer p f s := by
  rw [timesAnswer, ← setpointResult_eq (by simp)]
  rfl

theorem exec_setGroutTimes {p f : Nat} (hp : p < 65536) (hf : f < 65536) (h : CmdHead) {s : State}
    (ready : s.life = .ready) (line : s.cfg.roles.line = true) :
    exec (.setGroutTimes h (beBytes 2 p ++ beBytes 2 f)) s = .next (answer h 24 (timesAnswer p f s)) := by
  have fields := splitFields_words_two p f
  simp only [Nat.mod_eq_of_lt hp, Nat.mod_eq_of_lt hf] at fields
  have taken := takeCommand_ready (cmd := setGroutTimesCommand) (h := h) ready fields rfl line rfl
  rw [setGroutTimes_owner] at taken
  exact congrArg _ taken

section
variable {p f t0 : Nat} {s : State}

theorem timesAnswer_running (pot : ∀ t, s.grout.potStart = some t → s.clock.now < t + max 300 (min p 7200) * 1000)
    (flush : ∀ t, s.grout.flushStart = some t → s.clock.now < t + max 10 (min f 600) * 1000) :
    (timesAnswer p f s).state = settle false (withTimes p f s) := by
  have noFlush : judgeFlush (withTimes p f s) = withTimes p f s := judgeFlush_running flush
  have noPot : judgePotLife (withTimes p f s) = withTimes p f s := judgePotLife_running pot
  rw [timesAnswer, noFlush, noPot]

theorem timesAnswer_potDue (pot : s.grout.potStart = some t0) (flush : s.grout.flushStart = none)
    (due : t0 + max 300 (min p 7200) * 1000 ≤ s.clock.now) :
    (timesAnswer p f s).state = settle false (potLifeExpires (withTimes p f s)) := by
  have noFlush : judgeFlush (withTimes p f s) = withTimes p f s :=
    judgeFlush_running (by simp [withTimes, flush])
  have expires : judgePotLife (withTimes p f s) = potLifeExpires (withTimes p f s) := judgePotLife_due pot due
  rw [timesAnswer, noFlush, expires]

/-- The end of a flush idles the pot-life timer, so that timer is not judged again (08 R132). -/
theorem timesAnswer_flushDue (flush : s.grout.flushStart = some t0)
    (due : t0 + max 10 (min f 600) * 1000 ≤ s.clock.now) :
    (timesAnswer p f s).state = settle false (endFlush (withTimes p f s)) := by
  have ends : judgeFlush (withTimes p f s) = endFlush (withTimes p f s) := judgeFlush_due flush due
  have noPot : judgePotLife (endFlush (withTimes p f s)) = endFlush (withTimes p f s) :=
    judgePotLife_running (by simp [endFlush, setLine])
  rw [timesAnswer, ends, noPot]

end

/-! ### SET GROUT MINIMUM -/

/-- The station with the clamped minimum of a SET GROUT MINIMUM, before the units are evaluated (08 R135). -/
def withMinimum (g : Nat) (s : State) : State := { s with grout := { s.grout with gmin := min (min g 8) s.cfg.n } }

/-- A SET GROUT MINIMUM that is taken: the minimum, then the units on it (08 R135). -/
def minimumAnswer (g : Nat) (s : State) : Answer :=
  { result := clampedOr .done [(g, min (min g 8) s.cfg.n)], state := settle false (withMinimum g s) }

theorem setGroutMinimum_owner (g : Nat) (s : State) : setGroutMinimumCommand.owner [g] s = minimumAnswer g s := by
  rw [minimumAnswer, ← setpointResult_eq (by simp)]
  rfl

theorem exec_setGroutMinimum {g : Nat} (hg : g < 256) (h : CmdHead) {s : State} (ready : s.life = .ready) :
    exec (.setGroutMinimum h (beBytes 1 g)) s = .next (answer h 25 (minimumAnswer g s)) := by
  have fields : splitFields [1] (beBytes 1 g) = some [g] := by
    rw [splitFields_last, Nat.mod_eq_of_lt (show g < 256 ^ 1 from hg)]
  have taken := takeCommand_ready (cmd := setGroutMinimumCommand) (h := h) ready fields rfl rfl rfl
  rw [setGroutMinimum_owner] at taken
  exact congrArg _ taken

/-! ### The statement -/

/-- Settles O40: a timer is judged on its new value before the units are evaluated, and a line that has left ARMED and
INJECTING rests as the event ends; the reason GROUT is evaluated on the new minimum. -/
theorem groutTimesAndMinimumSet : Obligations.GroutTimesAndMinimumSet := by
  refine ⟨fun h p f s hp hf ready line pot flush => ?running,
    fun h p f t0 s hp hf ready line armed pot flush due => ?potFlushes,
    fun h p f t0 s hp hf ready line tripped pot flush due => ?potSets,
    fun h p f t0 s hp hf ready line flush due => ?flushEnds, fun i s reset => ?resets,
    fun h s service up => ⟨_, exec_restart service up, rfl⟩, fun h g s hg ready => ?minimum⟩
  case running =>
    have effect := timesAnswer_running pot flush
    have frame : FrameOf (withTimes p f s) (timesAnswer p f s).state := by
      rw [effect]; exact settle_frame false _
    have kept : QueueKept s.bus.queue (timesAnswer p f s).state := by
      rw [effect]; exact (evalKeeps_settle false (withTimes p f s)).queue
    exact ⟨_, exec_setGroutTimes hp hf h ready line, frame_answer h 24 frame, answered_answer h 24 _ kept⟩
  case potFlushes =>
    have flushes : potLifeExpires (withTimes p f s) = startFlush (withTimes p f s) := potLifeExpires_ready armed
    refine ⟨_, exec_setGroutTimes hp hf h ready line, ?_⟩
    dsimp only
    rw [answer_grout, timesAnswer_potDue pot flush due, flushes]
    exact ⟨settle_line_resting rfl rfl false, settle_potStart false _, settle_flushStart false _⟩
  case potSets =>
    have raises : potLifeExpires (withTimes p f s) = raiseSetting (withTimes p f s) := potLifeExpires_tripped tripped
    have rests : (raiseSetting (withTimes p f s)).grout.line = .tripped := tripped
    refine ⟨_, exec_setGroutTimes hp hf h ready line, ?_⟩
    dsimp only
    rw [answer_grout, timesAnswer_potDue pot flush due, raises]
    exact ⟨settle_line_resting rfl rests false, settle_setting false _, settle_potStart false _⟩
  case flushEnds =>
    refine ⟨_, exec_setGroutTimes hp hf h ready line, ?_⟩
    dsimp only
    rw [answer_grout, timesAnswer_flushDue flush due]
    exact ⟨settle_line_resting rfl rfl false, settle_flushStart false _, settle_setting false _⟩
  case resets =>
    rcases reset with rfl | rfl
    · exact ⟨_, rfl, rfl⟩
    · exact ⟨_, rfl, rfl⟩
  case minimum =>
    have settled : (minimumAnswer g s).state = settle false (withMinimum g s) := rfl
    have frame : FrameOf (withMinimum g s) (minimumAnswer g s).state := by
      rw [settled]; exact settle_frame false _
    have kept : QueueKept s.bus.queue (minimumAnswer g s).state := by
      rw [settled]; exact (evalKeeps_settle false (withMinimum g s)).queue
    refine ⟨_, exec_setGroutMinimum hg h ready, frame_answer h 25 frame, ?reason, answered_answer h 25 _ kept⟩
    have follows : GroutReasonFollows (answer h 25 (minimumAnswer g s)) := by
      have running : (withMinimum g s).running = true := running_of_ready ready
      exact groutReasonFollows_answer h 25 (groutReasonFollows_settle running false)
    have gmin : (answer h 25 (minimumAnswer g s)).grout.gmin = min (min g 8) s.cfg.n := by
      rw [answer_grout]; exact settle_gmin false (withMinimum g s)
    rw [GroutReasonFollows, gmin] at follows
    exact follows

end Sys2Proof.Machine
end

section
/-! PROOF. Every event takes a station through a chain of small changes, each under the condition its rule gives it. `Change`
lists them once; a property that each of them keeps is kept by every operation and every event, with no operation unfolded
again. -/

namespace Sys2Proof.Machine

open Sys2Proof

/-! ### The changes -/

/-- The two parts of an event: what its own rules do, and what the units evaluate. -/
inductive Phase where
  | rule | eval

/-- One change of a station within an event, with what its rule makes sure of. Units on which no kept property rests
(erector, outputs, the settings of the line) change freely. Changes of the peer view, the inputs, the lifecycle and the settings are
no part
of an evaluation, and the screw state and the support valve are evaluated alone. -/
inductive Change (s : State) : Phase → State → Prop
  | outputs {k : Phase} (o : Outputs) : Change s k { s with out := o }
  | grout (g : Grout) : Change s .rule { s with grout := g }
  | groutSettings {k : Phase} (g : Grout)
      (same : g.line = s.grout.line ∧ g.rate = s.grout.rate ∧ g.saturated = s.grout.saturated ∧ g.used = s.grout.used) :
      Change s k { s with grout := g }
  | line {k : Phase} (l : LineState) (ready : lineReady s.grout.line = true) : Change s k (setLine l s)
  | erector {k : Phase} (x : Erector) : Change s k { s with erector := x }
  | inputs (x : Inputs) : Change s .rule { s with inputs := x }
  | clock (c : Clock) (notice : c.noticeDue.isSome = s.clock.noticeDue.isSome)
      (control : c.controlDue.isSome = s.clock.controlDue.isSome)
      (drive : c.driveDue.isSome = s.clock.driveDue.isSome) : Change s .rule { s with clock := c }
  | listen (n : Nat) (listening : s.life = .listening) : Change s .rule { s with listen := n }
  | probe (listening : s.life = .listening) : Change s .rule { s with probe := true }
  | ready (listening : s.life = .listening) (count : s.listen = s.cfg.k + 1) (probed : s.probe = true) :
      Change s .rule { s with life := .ready }
  | peers (l : List PeerEntry)
      (kept : PeersInOrder s → PeersInOrder { s with view := { s.view with peers := l } }) :
      Change s .rule { s with view := { s.view with peers := l } }
  | trips (l : List TripPair) (running : s.running = true)
      (own : ∀ c, c ≠ .cabStop → ((s.own, c) ∈ l ↔ (s.own, c) ∈ s.view.trips)) :
      Change s .rule { s with view := { s.view with trips := l } }
  | blind (ready : s.life = .ready) : Change s .rule { s with view := { s.view with blind := true, completion := false } }
  | unblind : Change s .rule { s with view := { s.view with blind := false, silence := 0 } }
  | completion (b : Bool) : Change s .rule { s with view := { s.view with completion := b } }
  | silence (n : Nat) (ready : s.life = .ready) (bound : n ≤ s.cfg.k) :
      Change s .rule { s with view := { s.view with silence := n } }
  | heard (b : Bool) : Change s .rule { s with view := { s.view with heard := b } }
  | conflicts (a b : Bool) : Change s .rule { s with view := { s.view with screwConflict := a, erectorConflict := b } }
  | lring {k : Phase} (n : Nat) : Change s k { s with view := { s.view with lring := n } }
  | thrust {k : Phase} (x : Thrust) (same : x.mode = s.thrust.mode) : Change s k { s with thrust := x }
  | mode {k : Phase} (m : GroupMode) (armed : m ≠ .tripped) (untripped : s.thrust.mode ≠ .tripped)
      (covered : m = .retracting ∨ m = .clear →
        withdrawn s = true
          ∨ (s.build.state = .building ∧ ownCovered s = true ∧ currentEntryState s = some .pending)) :
      Change s k (setMode m s)
  | tripGroup (running : s.running = true) :
      Change s .rule
        { setMode .tripped s with
          view := { s.view with trips := withPair (s.own, .thrust) s.view.trips } }
  | rearmGroup (running : s.running = true) :
      Change s .rule
        { setMode .hold s with
          view := { s.view with trips := withoutPair (s.own, .thrust) s.view.trips } }
  | drive (d : Drive) (same : d.state = .stalled ↔ s.drive.state = .stalled) : Change s .rule { s with drive := d }
  | stop {k : Phase} (turns : s.drive.state = .starting ∨ s.drive.state = .running) : Change s k (stopDrive s)
  | stall (d : Drive) (stalled : d.state = .stalled) (running : s.running = true) :
      Change s .rule { s with drive := d, view := { s.view with trips := withPair (s.own, .stall) s.view.trips } }
  | rearmDrive (d : Drive) (armed : d.state ≠ .stalled) (running : s.running = true) :
      Change s .rule { s with drive := d, view := { s.view with trips := withoutPair (s.own, .stall) s.view.trips } }
  | screw (x : Screw) (state : x.state = s.screw.state) (command : x.command = s.screw.command)
      (support : x.support = s.screw.support) :
      Change s .rule { s with screw := x }
  | screwSpeed (x : Screw) (role : s.cfg.roles.screw = true) (state : x.state = .running)
      (running : s.screw.state = .running) (support : x.support = s.screw.support) (bound : x.command ≤ s.cfg.nmax) :
      Change s .rule { s with screw := x }
  | screwState : Change s .eval (setScrew (screwChoice s) s)
  | support : Change s .eval (supportEval s)
  | pace {k : Phase} (r : PaceReasons) (p : Pace) : Change s k { s with train := { s.train with reasons := r, pace := p } }
  | train (x : Train) (kept : TrainBalanced s → TrainBalanced { s with train := x }) : Change s .rule { s with train := x }
  | record {k : Phase} (r : Record) (ring : r.ring = s.records.current.ring)
      (kept : RatioBounded s → RatioBounded { s with records := { s.records with current := r } }) :
      Change s k { s with records := { s.records with current := r } }
  | store {k : Phase} (r : Nat) (c : OpeningCause) (higher : s.records.ring < r ∨ s.records.ring = 65535) :
      Change s k (storeAndOpen r c s)
  | openRecord (r : Nat) (c : OpeningCause) (h : List Record)
      (higher : h = [] ∨ (h = s.records.history ∧ s.records.ring < r)) :
      Change s .rule
        { s with
          records := { s.records with ring := r, current := Record.fresh s.cfg.roles r c, history := h } }
  | clearHistory : Change s .rule { s with records := { s.records with history := [] } }
  | waitingLimits (l : Option Limits) : Change s .rule { s with records := { s.records with waitingLimits := l } }
  | openUnits {k : Phase} (pressed : withdrawn s = false ∨ s.life ≠ .ready ∨ s.build.state = .ringOpen) :
      Change s k (openUnits s)
  | abandon (pressed : withdrawn s = false) (b : Build)
      (cleared : b.state = .ringOpen ∧ b.entries = [] ∧ b.index = 0) : Change s .rule { s with build := b }
  | buildFlags {k : Phase} (m : Nat) (r : Option Nat) (p l : Bool) :
      Change s k { s with build := { s.build with margin := m, retry := r, planMismatch := p, marginLow := l } }
  | suspend {k : Phase} (building : s.build.state = .building)
      (pressed : withdrawn s = false ∨ currentEntryState s ≠ some .pending) :
      Change s k { s with build := { s.build with state := .suspended, retry := none } }
  | resume (suspended : s.build.state = .suspended) (pending : currentEntryState s = some .pending) :
      Change s .rule { s with build := { s.build with state := .building } }
  | begin (ringOpen : s.build.state = .ringOpen) (ready : s.life = .ready) (plan : s.build.entries ≠ []) :
      Change s .rule (setEntryState .pending { s with build := { s.build with state := .building, index := 0 } })
  | entry {k : Phase} (e : EntryState) (unset : e ≠ .set)
      (covered : withdrawn s = true → ownCovered s = true →
        e = .claimed ∨ (e = .pending ∧ s.build.state = .building)) :
      Change s k (setEntryState e s)
  | index {k : Phase} (i : Nat) (inPlan : PlanInOrder s → i < s.build.entries.length) (forward : s.build.index ≤ i)
      (inBuild : s.build.state ≠ .ringOpen) (pressed : withdrawn s = false) : Change s k (moveIndex i s)
  | plan (b : Build)
      (free : s.build.state = .ringOpen ∨ (s.build.state = .suspended ∧ currentEntryState s ≠ some .claimed))
      (state : b.state = s.build.state)
      (kept : PlanInOrder s → PlanInOrder { s with build := b }) : Change s .rule { s with build := b }
  | enqueue {k : Phase} (n : TxNotice) (contents : n ≠ .state) : Change s k (enqueue n s)
  | queueState : Change s .rule (queueState s)
  | bus (b : Bus) (queue : b.queue = s.bus.queue) (offer : b.offer = s.bus.offer) : Change s .rule { s with bus := b }
  | offer (x : QueueItem) (rest : List QueueItem) (f : Frame) (idle : s.bus.offer = none)
      (head : s.bus.queue = x :: rest) :
      Change s .rule
        { s with bus := { s.bus with queue := { x with offering := true } :: rest, offer := some f } }
  | dropOffer (offered : s.bus.offer.isSome = true) : Change s .rule (dropOffer s)
  | completed (offered : s.bus.offer.isSome = true) : Change s .rule { s with bus := busCompleted s.own s.bus }

/-- A chain of changes. -/
abbrev Changes (k : Phase) : State → State → Prop := Relation.ReflTransGen (fun s t => Change s k t)

section
variable {k : Phase}

/-- A property that every change keeps is kept by every chain of them. -/
theorem Changes.keep {P : State → Prop} (step : ∀ {s t}, Change s k t → P s → P t) {s t : State}
    (h : Changes k s t) (hs : P s) : P t := by
  induction h with
  | refl => exact hs
  | tail _ change ih => exact step change ih

theorem Change.chain {s t : State} (h : Change s k t) : Changes k s t := .single h

/-- A change whose result is given by another expression. -/
theorem Change.chain_eq {s t u : State} (h : Change s k t) (e : u = t) : Changes k s u := e ▸ .single h

theorem Changes.of_eq {s t : State} (h : t = s) : Changes k s t := h ▸ .refl

end

/-- Queueing a STATE changes renewal mark or queue, or nothing (10 R158). -/
theorem queueState_cases (s : State) :
    queueState s = s ∨ queueState s = { s with bus := { s.bus with renewal := true } }
      ∨ (s.bus.queue.any (fun x => x.notice = .state) = false ∧ s.bus.queue.length < 6
          ∧ queueState s = { s with bus := { s.bus with queue := insertNotice .state s.bus.queue } }) := by
  unfold queueState
  split
  · exact .inl rfl
  · split
    · exact .inr (.inl rfl)
    · next none =>
      split
      · next room => exact .inr (.inr ⟨by simpa using none, room, rfl⟩)
      · exact .inl rfl

/-! ### What no change touches -/

/-- Own address, configured values, CONFIG CLAMPED and the waiting events stand through every event but a reset and the
reading of the memory. -/
structure Fixed (s t : State) : Prop where
  own : t.own = s.own
  cfg : t.cfg = s.cfg
  clamped : t.configClamped = s.configClamped
  pending : t.pending = s.pending
  running : t.running = s.running

theorem Fixed.trans {s t u : State} (h : Fixed s t) (k : Fixed t u) : Fixed s u :=
  ⟨k.own.trans h.own, k.cfg.trans h.cfg, k.clamped.trans h.clamped, k.pending.trans h.pending,
    k.running.trans h.running⟩

theorem Change.fixed {k : Phase} {s t : State} (h : Change s k t) : Fixed s t := by
  cases h
  case ready listening _ _ => exact ⟨rfl, rfl, rfl, rfl, by simp [State.running, listening]⟩
  case screwState => unfold setScrew; split <;> exact ⟨rfl, rfl, rfl, rfl, rfl⟩
  case queueState =>
    rcases queueState_cases s with e | e | ⟨_, _, e⟩
    · rw [e]; exact ⟨rfl, rfl, rfl, rfl, rfl⟩
    · rw [e]; exact ⟨rfl, rfl, rfl, rfl, rfl⟩
    · rw [e]; exact ⟨rfl, rfl, rfl, rfl, rfl⟩
  all_goals exact ⟨rfl, rfl, rfl, rfl, rfl⟩

theorem Changes.fixed {k : Phase} {s t : State} (h : Changes k s t) : Fixed s t := by
  induction h with
  | refl => exact ⟨rfl, rfl, rfl, rfl, rfl⟩
  | tail _ change ih => exact ih.trans change.fixed

end Sys2Proof.Machine
end

section
/-! PROOF. The operations that events are made of, and the evaluation that ends an event, as chains of changes: the units,
the ring close, the requests to the group, the STEP notices and the erector sequence, in the order of the model. -/

namespace Sys2Proof.Machine

open Sys2Proof

variable {k : Phase}

/-! ### Parts of the record -/

/-- A figure of the record that is neither its ring nor the spoil part. -/
theorem Change.figures {s : State} (r : Record) (ring : r.ring = s.records.current.ring)
    (spoil : r.spoil = s.records.current.spoil) :
    Change s k { s with records := { s.records with current := r } } :=
  .record r ring fun bounded p x hp => bounded p x (spoil ▸ hp)

theorem changes_onBuildPart (f : BuildPart → BuildPart) (s : State) : Changes k s (onBuildPart f s) :=
  (Change.figures { s.records.current with build := s.records.current.build.map f } rfl rfl).chain

theorem changes_onGroutPart (f : GroutPart → GroutPart) (s : State) : Changes k s (onGroutPart f s) :=
  (Change.figures { s.records.current with grout := s.records.current.grout.map f } rfl rfl).chain

/-- A change of the spoil part that leaves the ratio and its volume alone (09 R139, R141). -/
theorem changes_onSpoilPart {f : SpoilPart → SpoilPart} (same : ∀ p, (f p).ratio = p.ratio ∧ (f p).vex = p.vex)
    (s : State) : Changes k s (onSpoilPart f s) := by
  refine (Change.record { s.records.current with spoil := s.records.current.spoil.map f } rfl ?_).chain
  intro bounded p x hp hx
  obtain ⟨q, hq, rfl⟩ : ∃ q, s.records.current.spoil = some q ∧ f q = p := by simpa using hp
  obtain ⟨ratio, vex⟩ := same q
  rw [vex]
  exact bounded q x hq (ratio ▸ hx)

/-- A computation of the spoil account gives a ratio within its bounds, or none (09 R141). -/
theorem changes_accountSpoil (s : State) : Changes k s (accountSpoil s) := by
  refine (Change.record { s.records.current with spoil := s.records.current.spoil.map (accountPart s) } rfl ?_).chain
  intro _ p x hp hx
  obtain ⟨q, _, rfl⟩ : ∃ q, s.records.current.spoil = some q ∧ accountPart s q = p := by simpa using hp
  simp only [accountPart, balanceRatio] at hx ⊢
  split at hx
  · exact absurd hx (by simp)
  · next enough =>
    obtain rfl := Option.some.inj hx
    exact ⟨Nat.min_le_right _ _, Nat.le_of_not_lt enough⟩

theorem changes_syncRecord (s : State) : Changes k s (syncRecord s) :=
  (Change.figures (s := s) (syncRecord s).records.current rfl rfl).chain

/-! ### Drive, screw, train and thrust unit, and the line -/

theorem changes_stopDrive {s : State} (turns : s.drive.state = .starting ∨ s.drive.state = .running) :
    Changes k s (stopDrive s) :=
  (Change.stop turns).chain

theorem changes_driveEval (s : State) : Changes k s (driveEval s) := by
  unfold driveEval
  split
  · next h =>
    simp only [Bool.and_eq_true, Bool.or_eq_true, decide_eq_true_eq] at h
    exact changes_stopDrive h.1
  · exact .refl

theorem changes_pressureBlindEval (s : State) : Changes k s (pressureBlindEval s) := by
  have reason := (Change.pace (k := k) (s := s) { s.train.reasons with pressureBlind := (controlPressure s).isNone }
    s.train.pace).chain
  unfold pressureBlindEval; dsimp only
  split
  · exact reason.trans
      (changes_onSpoilPart (f := fun p => { p with pressureBlind := true }) (fun _ => ⟨rfl, rfl⟩) _)
  · exact reason

theorem changes_supportEval (s : State) : Changes .eval s (supportEval s) :=
  Change.support.chain

theorem changes_screwEval (s : State) : Changes .eval s (screwEval s) := by
  unfold screwEval; dsimp only
  split
  · exact ((changes_pressureBlindEval s).tail .screwState).trans (changes_supportEval _)
  · exact .refl

theorem changes_limitEval (s : State) : Changes k s (limitEval s) :=
  (Change.thrust (s := s) (limitEval s).thrust rfl).chain

theorem changes_holdsEval (s : State) : Changes k s (holdsEval s) :=
  (Change.thrust (s := s) (holdsEval s).thrust rfl).chain

theorem changes_setPace (p : Pace) (s : State) : Changes k s (setPace p s) := by
  have queued : Changes k s (enqueue (.pace p) { s with train := { s.train with pace := p } }) :=
    (Change.pace s.train.reasons p).chain.tail (.enqueue _ (by simp))
  unfold setPace; dsimp only
  split
  · exact .refl
  · split
    · exact queued.trans (changes_limitEval _)
    · exact queued

theorem changes_trainEval (s : State) : Changes k s (trainEval s) := by
  unfold trainEval; dsimp only
  split
  · exact (Change.pace
      { s.train.reasons with train := trainGrade s.train, noTarget := s.screw.target.isNone }
      s.train.pace).chain.trans (changes_setPace _ _)
  · exact .refl

/-- A change of mode that neither trips nor re-arms nor withdraws the group. -/
theorem changes_setMode {m : GroupMode} {s : State} (untripped : s.thrust.mode ≠ .tripped) (armed : m ≠ .tripped)
    (stays : m ≠ .retracting ∧ m ≠ .clear) : Changes k s (setMode m s) :=
  (Change.mode m armed untripped fun h => absurd h (by simp [stays])).chain

theorem changes_advanceEval (s : State) : Changes k s (advanceEval s) := by
  unfold advanceEval
  split
  · next hold =>
    split
    · exact changes_setMode (by simp [hold]) (by simp) (by simp)
    · exact .refl
  · next advance =>
    split
    · exact .refl
    · exact changes_setMode (by simp [advance]) (by simp) (by simp)
  · exact .refl

theorem changes_unitsEval (lim : Bool) (s : State) : Changes .eval s (unitsEval lim s) := by
  have paced := ((changes_driveEval s).trans (changes_screwEval _)).trans (changes_trainEval _)
  unfold unitsEval
  cases lim
  · exact (paced.trans (changes_holdsEval _)).trans (changes_advanceEval _)
  · exact ((paced.trans (changes_limitEval _)).trans (changes_holdsEval _)).trans (changes_advanceEval _)

theorem changes_tailEval (s : State) : Changes k s (tailEval s) := by
  unfold tailEval
  split
  · split
    · exact (Change.groutSettings { s.grout with tail := none } ⟨rfl, rfl, rfl, rfl⟩).chain
    · exact .refl
  · exact .refl

theorem changes_setLine {s : State} (l : LineState) (ready : lineReady s.grout.line = true) :
    Changes k s (setLine l s) := (Change.line l ready).chain

theorem changes_injectionEval (s : State) : Changes k s (injectionEval s) := by
  have tail : Changes k s (tailEval s) := changes_tailEval s
  unfold injectionEval; dsimp only
  split
  · next armed =>
    split
    · exact tail.trans (changes_setLine _ (by rw [armed]; rfl))
    · exact tail
  · next injecting =>
    split
    · exact tail
    · exact tail.trans (changes_setLine _ (by rw [injecting]; rfl))
  · exact tail

theorem changes_judgeLinePressure (s : State) : Changes k s (judgeLinePressure s) := by
  unfold judgeLinePressure
  split
  · next trips =>
    have ready : lineReady s.grout.line = true := by
      simp only [Bool.and_eq_true] at trips
      exact trips.1
    exact (changes_setLine _ ready).trans (changes_onGroutPart _ _)
  · exact .refl

/-! ### Requests to the thrust group and the build -/

/-- What a PRESS request of an event looks at and changes: an operation that leaves mode, configuration and inputs alone,
and that a change of mode passes through, can come before or after it. -/
theorem pressIfWithdrawn_comm {f : State → State} (passes : ∀ m s, setMode m (f s) = f (setMode m s))
    (mode : ∀ s, (f s).thrust.mode = s.thrust.mode) (cfg : ∀ s, (f s).cfg = s.cfg)
    (inputs : ∀ s, (f s).inputs = s.inputs) (s : State) :
    pressIfWithdrawn (f s) = f (pressIfWithdrawn s) := by
  have request : pressRequest (f s) = f (pressRequest s) := by
    unfold pressRequest
    rw [mode, cfg, inputs]
    split
    · split <;> simp only [passes]
    · split <;> simp only [passes]
    · split <;> simp only [passes]
    · rfl
  have same : withdrawn (f s) = withdrawn s := by simp [withdrawn, mode]
  unfold pressIfWithdrawn
  rw [same, request]
  split <;> rfl

theorem changes_pressRequest (s : State) : Changes k s (pressRequest s) := by
  have press (untripped : s.thrust.mode ≠ .tripped) :
      Changes k s
        (if s.cfg.pressForce ≤ s.inputs.force then setMode .hold (setMode .pressing s) else setMode .pressing s) := by
    have pressing : Changes k s (setMode .pressing s) := changes_setMode untripped (by simp) (by simp)
    split
    · exact pressing.trans (changes_setMode (by simp) (by simp) (by simp))
    · exact pressing
  unfold pressRequest
  split
  · next h => exact press (by simp [h])
  · next h => exact press (by simp [h])
  · next h => exact press (by simp [h])
  · exact .refl

theorem changes_pressIfWithdrawn (s : State) : Changes k s (pressIfWithdrawn s) := by
  unfold pressIfWithdrawn
  split
  · exact changes_pressRequest s
  · exact .refl

theorem changes_decideRetract (s : State) : Changes k s (decideRetract s) := by
  rcases decideRetract_cases s with h | ⟨building, covered, pending, hold, _, _, _, _, h⟩
  · exact .of_eq h
  · rw [h]
    refine (Change.mode _ ?_ (by simp [hold]) fun _ => .inr ⟨building, covered, pending⟩).chain
    split <;> simp

theorem changes_abortWithdrawal (s : State) : Changes k s (abortWithdrawal s) := by
  let t := pressRequest s
  exact (changes_pressRequest s).tail
    (.buildFlags t.build.margin (some 0) t.build.planMismatch t.build.marginLow)

@[simp] theorem pressIfWithdrawn_build_state (s : State) : (pressIfWithdrawn s).build.state = s.build.state := by
  have h := congrArg Build.state (plan_pressIfWithdrawn s)
  exact h

theorem changes_suspendBuild (s : State) : Changes k s (suspendBuild s) := by
  unfold suspendBuild
  split
  · next building =>
    dsimp only
    split
    · exact ((changes_pressIfWithdrawn s).tail
        (.suspend (by simpa using building) (.inl (withdrawn_pressIfWithdrawn s)))).trans (changes_onBuildPart _ _)
    · exact ((changes_pressIfWithdrawn s).tail
        (.suspend (by simpa using building) (.inl (withdrawn_pressIfWithdrawn s)))).trans (changes_onBuildPart _ _)
    · next notPending _ =>
      exact (Change.suspend building (.inr notPending)).chain.trans (changes_onBuildPart _ _)
  · exact .refl

theorem changes_raiseMismatch (s : State) : Changes k s (raiseMismatch s) :=
  (Change.buildFlags s.build.margin s.build.retry true s.build.marginLow).chain

/-- The trip memory takes new pairs, of which none concerns the own group and drive, or the own pair with its unit. -/
theorem changes_setTrips {s : State} {l : List TripPair} (running : s.running = true)
    (own : ∀ c, c ≠ .cabStop → ((s.own, c) ∈ l ↔ (s.own, c) ∈ s.view.trips)) : Changes .rule s (setTrips l s) := by
  have taken := (Change.trips l running own).chain
  rcases setTrips_cases l s with ⟨h, _⟩ | ⟨h, _⟩
  · exact h ▸ taken
  · exact h ▸ taken.trans (changes_suspendBuild _)

/-! ### Ring close -/

theorem changes_updateRingAdvance (s : State) : Changes k s (updateRingAdvance s) := by
  unfold updateRingAdvance
  split
  · exact (Change.lring _).chain
  · exact .refl

/-- The record stored and the next opened, with the units on the new ring; `f` is what the build part takes first (09
R144). -/
def ringOpened (f : BuildPart → BuildPart) (r : Nat) (c : OpeningCause) (s : State) : State :=
  openUnits (groutSettingsAtClose (storeAndOpen r c (syncRecord
    (onBuildPart f (groutTotals (accountSpoil (updateRingAdvance s)))))))

/-- The evaluation of the units within a ring close (09 R144, 08 R125, R133). -/
def ringJudged (s : State) : State := judgeLinePressure (injectionEval (unitsEval false (judgeOver false s)))

theorem closeRing_eq (r : Nat) (c : OpeningCause) (s : State) :
    closeRing r c s =
      ringJudged (ringOpened (fun b => { b with
        entriesSet := ((updateRingAdvance s).build.entries.filter (fun e => e.state = .set)).length }) r c s) := rfl

theorem changes_ringJudged (s : State) : Changes .eval s (ringJudged s) :=
  (((Change.pace { s.train.reasons with isOver := false } s.train.pace).chain.trans
    (changes_unitsEval false _)).trans (changes_injectionEval _)).trans (changes_judgeLinePressure _)

@[simp] theorem updateRingAdvance_thrust (s : State) : (updateRingAdvance s).thrust = s.thrust := by
  unfold updateRingAdvance; split <;> rfl

@[simp] theorem updateRingAdvance_build (s : State) : (updateRingAdvance s).build = s.build := by
  unfold updateRingAdvance; split <;> rfl

@[simp] theorem updateRingAdvance_life (s : State) : (updateRingAdvance s).life = s.life := by
  unfold updateRingAdvance; split <;> rfl

@[simp] theorem updateRingAdvance_records (s : State) : (updateRingAdvance s).records = s.records := by
  unfold updateRingAdvance; split <;> rfl

theorem changes_ringOpened (f : BuildPart → BuildPart) {r : Nat} (c : OpeningCause) {s : State}
    (higher : s.records.ring < r ∨ s.records.ring = 65535)
    (pressed : withdrawn s = false ∨ s.life ≠ .ready ∨ s.build.state = .ringOpen) : Changes k s (ringOpened f r c s) := by
  have totals : Changes k s (syncRecord (onBuildPart f (groutTotals (accountSpoil (updateRingAdvance s))))) :=
    (((changes_updateRingAdvance s).trans (changes_accountSpoil _)).trans (changes_onGroutPart _ _)).trans
      ((changes_onBuildPart f _).trans (changes_syncRecord _))
  have settings : ∀ u : State, Change u k (groutSettingsAtClose u) := fun u =>
    .groutSettings (groutSettingsAtClose u).grout ⟨rfl, rfl, rfl, rfl⟩
  refine ((totals.tail (.store r c ?_)).tail (settings _)).tail (.openUnits ?_)
  · simpa using higher
  · simpa [withdrawn] using pressed

theorem changes_closeRing {r : Nat} (c : OpeningCause) {s : State}
    (higher : s.records.ring < r ∨ s.records.ring = 65535)
    (pressed : withdrawn s = false ∨ s.life ≠ .ready ∨ s.build.state = .ringOpen) : Changes .eval s (closeRing r c s) := by
  rw [closeRing_eq]
  exact (changes_ringOpened _ c higher pressed).trans (changes_ringJudged _)

theorem updateRingAdvance_moveIndex (i : Nat) (s : State) :
    updateRingAdvance (moveIndex i s) = moveIndex i (updateRingAdvance s) := by
  have mean : ringMean (moveIndex i s) = ringMean s := rfl
  unfold updateRingAdvance
  rw [mean, moveIndex_view]
  split <;> rfl

/-- The ring opened does not depend on where the progress index stood (09 R144). -/
theorem ringOpened_moveIndex (f : BuildPart → BuildPart) (r : Nat) (c : OpeningCause) (i : Nat) (s : State) :
    ringOpened f r c (moveIndex i s) = ringOpened f r c s := by
  have account : ∀ t, accountSpoil (moveIndex i t) = moveIndex i (accountSpoil t) := fun _ => rfl
  have grout : ∀ t, groutTotals (moveIndex i t) = moveIndex i (groutTotals t) := fun _ => rfl
  have part : ∀ t, onBuildPart f (moveIndex i t) = moveIndex i (onBuildPart f t) := fun _ => rfl
  have sync : ∀ t, syncRecord (moveIndex i t) = moveIndex i (syncRecord t) := fun _ => rfl
  have store : ∀ t, storeAndOpen r c (moveIndex i t) = moveIndex i (storeAndOpen r c t) := fun _ => rfl
  have settings : ∀ t, groutSettingsAtClose (moveIndex i t) = moveIndex i (groutSettingsAtClose t) := fun _ => rfl
  have opened : ∀ t, openUnits (moveIndex i t) = openUnits t := fun _ => rfl
  unfold ringOpened
  rw [updateRingAdvance_moveIndex, account, grout, part, sync, store, settings, opened]

/-! ### STEP notices -/

theorem pressPassed_eq (s : State) : ∃ x, pressPassed s = { s with erector := x } := by
  rcases pressPassed_cases s with h | ⟨_, _, _, _, h⟩
  · exact ⟨_, h⟩
  · exact ⟨_, h⟩

theorem sequencePassed_eq (s : State) : ∃ x, sequencePassed s = { s with erector := x } := by
  rcases sequencePassed_cases s with h | ⟨_, _, _, _, h⟩
  · exact ⟨_, h⟩
  · exact ⟨_, h⟩

theorem changes_judgeEmpty (s : State) : Changes k s (judgeEmpty s) := by
  unfold judgeEmpty
  split
  · exact (changes_raiseMismatch s).trans (changes_suspendBuild _)
  · exact .refl

theorem pressIfWithdrawn_moveIndex (i : Nat) (s : State) :
    pressIfWithdrawn (moveIndex i s) = moveIndex i (pressIfWithdrawn s) :=
  pressIfWithdrawn_comm (f := moveIndex i) (fun _ _ => rfl) (fun _ => rfl) (fun _ => rfl) (fun _ => rfl) s

theorem pressIfWithdrawn_setEntryState (e : EntryState) (s : State) :
    pressIfWithdrawn (setEntryState e s) = setEntryState e (pressIfWithdrawn s) :=
  pressIfWithdrawn_comm (f := setEntryState e) (fun _ _ => rfl) (fun _ => rfl) (fun _ => rfl) (fun _ => rfl) s

theorem pressIfWithdrawn_erector (x : Erector) (s : State) :
    pressIfWithdrawn { s with erector := x } = { pressIfWithdrawn s with erector := x } :=
  pressIfWithdrawn_comm (f := fun s => { s with erector := x }) (fun _ _ => rfl) (fun _ => rfl) (fun _ => rfl)
    (fun _ => rfl) s

theorem pressIfWithdrawn_onBuildPart (f : BuildPart → BuildPart) (s : State) :
    pressIfWithdrawn (onBuildPart f s) = onBuildPart f (pressIfWithdrawn s) :=
  pressIfWithdrawn_comm (f := onBuildPart f) (fun _ _ => rfl) (fun _ => rfl) (fun _ => rfl) (fun _ => rfl) s

theorem pressIfWithdrawn_pressPassed (s : State) : ∃ x,
    pressIfWithdrawn (pressPassed s) = { pressIfWithdrawn s with erector := x } := by
  obtain ⟨x, h⟩ := pressPassed_eq s
  exact ⟨x, by rw [h, pressIfWithdrawn_erector]⟩

@[simp] theorem pressIfWithdrawn_build_entries (s : State) :
    (pressIfWithdrawn s).build.entries = s.build.entries := by
  have h := congrArg Build.entries (plan_pressIfWithdrawn s)
  exact h

@[simp] theorem pressIfWithdrawn_build_index (s : State) : (pressIfWithdrawn s).build.index = s.build.index := by
  have h := congrArg Build.index (plan_pressIfWithdrawn s)
  exact h

/-- The order of the plan rests on the plan and the lifecycle alone. -/
theorem planInOrder_congr {s t : State} (plan : planOf t = planOf s) (life : t.life = s.life) :
    PlanInOrder t ↔ PlanInOrder s := by
  have entries : t.build.entries = s.build.entries := by have h := congrArg Build.entries plan; exact h
  have index : t.build.index = s.build.index := by have h := congrArg Build.index plan; exact h
  have state : t.build.state = s.build.state := by have h := congrArg Build.state plan; exact h
  simp only [PlanInOrder, entries, index, state, life]

theorem planInOrder_pressIfWithdrawn (s : State) : PlanInOrder (pressIfWithdrawn s) ↔ PlanInOrder s :=
  planInOrder_congr (plan_pressIfWithdrawn s) (congrArg Base.life (base_pressIfWithdrawn s))

/-- A group is pressed before the progress index moves on (03 R57, R60). -/
theorem changes_movedPressed {i : Nat} {s : State} (inPlan : PlanInOrder s → i < s.build.entries.length)
    (forward : s.build.index ≤ i)
    (inBuild : s.build.state ≠ .ringOpen) : Changes k s (pressIfWithdrawn (pressPassed (moveIndex i s))) := by
  obtain ⟨x, h⟩ := pressIfWithdrawn_pressPassed (moveIndex i s)
  rw [h, pressIfWithdrawn_moveIndex]
  exact ((changes_pressIfWithdrawn s).tail
    (.index i (by simpa [planInOrder_pressIfWithdrawn] using inPlan) (by simpa using forward) (by simpa using inBuild)
      (withdrawn_pressIfWithdrawn s))).tail (.erector x)

theorem changes_catchUp {j : Nat} {s : State} (inPlan : PlanInOrder s → j < s.build.entries.length)
    (forward : s.build.index ≤ j)
    (inBuild : s.build.state ≠ .ringOpen) : Changes k s (catchUp j s) := by
  unfold catchUp; dsimp only
  rw [pressIfWithdrawn_onBuildPart]
  exact ((changes_movedPressed inPlan forward inBuild).trans (changes_onBuildPart _ _)).trans (changes_judgeEmpty _)

theorem lt_nextRing_or (r : Nat) : r < nextRing r ∨ r = 65535 := by
  unfold nextRing
  split
  · next h => exact .inr h
  · exact .inl (Nat.lt_succ_self r)

/-- The SET of the KEY presses, and closes the ring with its entry counted (03 R60, R61). -/
theorem changes_setKey (i : Nat) (s : State) :
    Changes .eval s (closeRing (nextRing s.records.ring) .close (pressIfWithdrawn (sequencePassed (moveIndex i s)))) := by
  obtain ⟨x, h⟩ := sequencePassed_eq (moveIndex i s)
  have swap : pressIfWithdrawn (sequencePassed (moveIndex i s)) = moveIndex i { pressIfWithdrawn s with erector := x } := by
    rw [h, pressIfWithdrawn_erector, pressIfWithdrawn_moveIndex]; rfl
  rw [swap, closeRing_eq, ringOpened_moveIndex]
  refine (((changes_pressIfWithdrawn s).tail (.erector x)).trans (changes_ringOpened _ _ ?_ ?_)).trans
    (changes_ringJudged _)
  · simpa using lt_nextRing_or s.records.ring
  · exact .inl (withdrawn_pressIfWithdrawn s)

/-- An entry in order is SET below the progress index alone, and carries the KEY exactly as the last (03 R40, R41). -/
theorem PlanInOrder.at_index {s : State} (h : PlanInOrder s) {e : PlanEntry} (at_index : planAt s s.build.index = some e) :
    e.state ≠ .set ∧ (e.key = true ↔ s.build.index + 1 = s.build.entries.length) := by
  obtain ⟨_, _, entries, _, _⟩ := h
  obtain ⟨set, key⟩ := entries _ _ at_index
  exact ⟨fun h => Nat.lt_irrefl _ (set.1 h), key⟩

theorem lt_length_of_planAt {s : State} {i : Nat} {e : PlanEntry} (h : planAt s i = some e) :
    i < s.build.entries.length := (List.getElem?_eq_some_iff.1 h).1

/-- A SET at the progress index leaves the index within the plan unless it is the KEY's (03 R60, R61). -/
theorem changes_setEntry {e : PlanEntry} {s : State} (inBuild : s.build.state ≠ .ringOpen)
    (at_index : planAt s s.build.index = some e) : Changes .eval s (setEntry e s) := by
  unfold setEntry; dsimp only
  split
  · exact changes_setKey _ s
  · next key =>
    have inPlan : PlanInOrder s → s.build.index + 1 < s.build.entries.length := by
      intro order
      have last := (order.at_index at_index).2
      have := lt_length_of_planAt at_index
      simp only [key, Bool.false_eq_true, false_iff] at last
      omega
    exact (changes_movedPressed inPlan (Nat.le_succ _) inBuild).trans (changes_judgeEmpty _)

theorem planAt_setEntryState (e : EntryState) (s : State) :
    planAt (setEntryState e s) s.build.index = (planAt s s.build.index).map (fun p => { p with state := e }) := by
  simp [planAt, setEntryState]

@[simp] theorem ownCovered_setEntryState (e : EntryState) (s : State) : ownCovered (setEntryState e s) = ownCovered s := by
  have index : (setEntryState e s).build.index = s.build.index := rfl
  have own : (setEntryState e s).own = s.own := rfl
  unfold ownCovered
  rw [index, own, planAt_setEntryState]
  cases planAt s s.build.index <;> rfl

@[simp] theorem withdrawn_setEntryState (e : EntryState) (s : State) : withdrawn (setEntryState e s) = withdrawn s := rfl

theorem changes_releaseEntry {s : State} (inBuild : s.build.state ≠ .ringOpen) : Changes k s (releaseEntry s) := by
  unfold releaseEntry; dsimp only
  rw [ownCovered_setEntryState, withdrawn_setEntryState]
  split
  · next out =>
    simp only [Bool.and_eq_true] at out
    split
    · have swap : pressRequest (setEntryState .pending s) = setEntryState .pending (pressIfWithdrawn s) := by
        rw [← pressIfWithdrawn_setEntryState, pressIfWithdrawn, if_pos (by exact out.2)]
      rw [swap]
      exact (changes_pressIfWithdrawn s).tail
        (.entry .pending (by simp) fun h => absurd h (by simp [withdrawn_pressIfWithdrawn]))
    · next notSuspended =>
      have building : s.build.state = .building := by
        have : s.build.state ≠ .suspended := notSuspended
        cases h : s.build.state <;> simp_all
      have pending : Changes k s (setEntryState .pending s) :=
        (Change.entry .pending (by simp) fun _ _ => .inr ⟨rfl, building⟩).chain
      split
      · exact pending
      · exact pending.trans (changes_abortWithdrawal _)
  · next stays =>
    refine (Change.entry .pending (by simp) fun out covered => ?_).chain
    simp [out, covered] at stays

theorem changes_placeEntry (s : State) : Changes k s (placeEntry s) := by
  unfold placeEntry; dsimp only
  rw [ownCovered_setEntryState]
  split
  · rw [pressIfWithdrawn_setEntryState]
    exact (changes_pressIfWithdrawn s).tail
      (.entry .placed (by simp) fun h => absurd h (by simp [withdrawn_pressIfWithdrawn]))
  · next uncovered => exact (Change.entry .placed (by simp) fun _ covered => absurd covered uncovered).chain

/-- Of the actions SET alone evaluates units, at the ring it closes (03 R60, R61). -/
theorem changes_applyAction {a : StepAction} (phase : a = .set → k = .eval) {s : State}
    (inBuild : s.build.state ≠ .ringOpen) : Changes k s (applyAction a s) := by
  unfold applyAction
  split
  · exact .refl
  · next e at_index =>
    split
    · obtain rfl := phase rfl
      exact changes_setEntry inBuild at_index
    · exact changes_raiseMismatch s
    · exact (Change.entry .claimed (by simp) fun _ _ => .inl rfl).chain
    · exact changes_releaseEntry inBuild
    · exact changes_releaseEntry inBuild
    · exact changes_placeEntry s
    · exact changes_placeEntry s
    · exact changes_placeEntry s
    · exact .refl

/-- A catch-up ends no build (03 R46, R57). -/
theorem catchUp_inBuild {j : Nat} {s : State} (inBuild : s.build.state ≠ .ringOpen) :
    (catchUp j s).build.state ≠ .ringOpen :=
  (buildFlows_catchUp (c := False) j s).not_ringOpen id inBuild

theorem changes_judgeStep {a : StepAction} (phase : a = .set → k = .eval) (r i : Nat) (s : State) :
    Changes k s (judgeStep a r i s) := by
  unfold judgeStep
  split
  · exact .refl
  · next inBuild =>
    split
    · exact .refl
    · split
      · exact changes_raiseMismatch s
      · split
        · exact changes_raiseMismatch s
        · next inPlan =>
          split
          · exact .refl
          · next below =>
            split
            · exact changes_applyAction phase inBuild
            · exact (changes_catchUp (fun _ => Nat.lt_of_not_le inPlan) (Nat.le_of_not_lt below) inBuild).trans
                (changes_applyAction phase (catchUp_inBuild inBuild))

theorem changes_takeStep {a : StepAction} (phase : a = .set → k = .eval) (r i : Nat) (s : State) :
    Changes k s (takeStep a r i s) :=
  (changes_judgeStep phase r i s).trans (changes_decideRetract _)

/-! ### The erector sequence and the end of an event -/

theorem changes_issueStep {a : StepAction} (phase : a = .set → k = .eval) (w : Working) (s : State) :
    Changes k s (issueStep a w s) :=
  (Change.enqueue _ (by simp)).chain.trans (changes_takeStep phase _ _ _)

theorem changes_setSeq (q : SeqState) (s : State) : Changes k s (setSeq q s) := (Change.erector _).chain

theorem changes_setSeq_issueStep (q : SeqState) {a : StepAction} (phase : a = .set → k = .eval) (w : Working)
    (s : State) : Changes k s (issueStep a w (setSeq q s)) := (changes_setSeq q s).trans (changes_issueStep phase w _)

theorem changes_leaveStandby (s : State) : Changes k s (leaveStandby s) := by
  unfold leaveStandby; dsimp only
  repeat' split
  · exact (changes_setSeq _ s).tail (.erector _)
  all_goals exact .refl

theorem changes_placingTest (w : Working) (s : State) : Changes k s (placingTest w s) := by
  unfold placingTest
  split
  · exact (Change.erector _).chain
  · split
    · exact changes_setSeq_issueStep .placing (by simp) w s
    · exact (Change.erector _).chain.trans (changes_suspendBuild _)

/-- A transition in conflict sends no SET, and so evaluates no unit (01 R20). -/
theorem changes_seqStep {s : State} (phase : s.view.erectorConflict = false → k = .eval) :
    Changes k s (seqStep s) := by
  unfold seqStep
  split
  · exact changes_leaveStandby s
  · exact changes_setSeq .standby s
  · repeat' split
    · exact changes_setSeq .standby s
    · exact changes_placingTest _ s
    · exact .refl
  · repeat' split
    · exact changes_setSeq_issueStep .standby (by simp) _ s
    · exact changes_setSeq .standby s
    · exact changes_setSeq_issueStep .standby (by simp) _ s
    · exact .refl
    · exact changes_setSeq_issueStep .awaitingClear (by simp) _ s
  · split
    · exact changes_setSeq .standby s
    · next free =>
      split
      · exact changes_setSeq_issueStep .standby (fun _ => phase (by simpa using free)) _ s
      · exact .refl

theorem changes_seqSteps (n : Nat) (s : State) : Changes .eval s (seqSteps n s) := by
  induction n generalizing s with
  | zero => exact .refl
  | succ n ih =>
    unfold seqSteps
    split
    · exact changes_seqStep fun _ => rfl
    · exact (changes_seqStep fun _ => rfl).trans (ih _)

theorem changes_erectorEval (s : State) : Changes .eval s (erectorEval s) := by
  unfold erectorEval
  split
  · exact changes_seqSteps 8 s
  · exact .refl

/-- The end of an event is a chain of changes. -/
theorem changes_settle (lim : Bool) (s : State) : Changes .eval s (settle lim s) := by
  unfold settle
  split
  · exact (((((changes_unitsEval lim s).trans (changes_erectorEval _)).trans (changes_unitsEval lim _)).trans
      (changes_injectionEval _)).trans (changes_syncRecord _)).tail (.outputs _)
  · exact .refl

end Sys2Proof.Machine
end

section
/-! PROOF. What an event can be: a reset, the reading of the memory, an event that evaluates no unit, or a chain of changes at
a LISTENING or READY station followed by the evaluation of its units. -/

namespace Sys2Proof.Machine

open Sys2Proof

/-! ### Events -/

/-- An event that evaluates no unit: notices of the bus interface, settings and records that nothing evaluates, field
inputs that no unit reads then, and what a station outside LISTENING and READY takes. -/
inductive Quiet (s : State) : State → Prop
  | bus (b : Bus) : Quiet s { s with bus := b }
  | settings (g : Option GroutSet) (l : Option Limits) (h : List Record) (b : Bus) :
      Quiet s
        { s with
          grout := { s.grout with waiting := g }
          records := { s.records with history := h, waitingLimits := l }
          bus := b }
  | readings (speed torque : Nat) (seated : Bool) (b : Bus) :
      Quiet s { s with inputs := { s.inputs with speed := speed, torque := torque, seated := seated }, bus := b }
  | inputs (x : Inputs) (b : Bus) (idle : s.running = false) : Quiet s { s with inputs := x, bus := b }
  | faulted (b : Bus) (blind completion : Bool) (silence : Nat) (idle : s.running = false) :
      Quiet s
        { s with
          view := { s.view with blind := blind, completion := completion, silence := silence }
          bus := b }

/-- The effect of an event that is no reset and no reading of the memory: what its rules do, what it evaluates on the way
(a ring close does), the evaluation that ends it, and what it queues after that. -/
inductive Effect (s : State) : State → Prop
  | quiet {t : State} (quiet : Quiet s t) (changes : Changes .rule s t) : Effect s t
  | settled (lim : Bool) {m e : State} (b : Bus) (running : s.running = true) (own : Changes .rule s m)
      (evaluated : Changes .eval m e)
      (queued : Changes .rule (settle lim e) { settle lim e with bus := b }) : Effect s { settle lim e with bus := b }

theorem Effect.refl (s : State) : Effect s s := .quiet (.bus s.bus) .refl

theorem Effect.of_running (lim : Bool) {s m e : State} (running : s.running = true) (own : Changes .rule s m)
    (evaluated : Changes .eval m e) : Effect s (settle lim e) :=
  .settled lim (settle lim e).bus running own evaluated .refl

/-- A property that every change keeps is kept by the effect of an event. -/
theorem Effect.keep {P : State → Prop} (step : ∀ {k s t}, Change s k t → P s → P t) {s t : State} (h : Effect s t)
    (hs : P s) : P t := by
  cases h with
  | quiet _ changes => exact changes.keep step hs
  | settled lim b _ own evaluated queued =>
    exact queued.keep step ((changes_settle lim _).keep step (evaluated.keep step (own.keep step hs)))

/-- A change of the bus interface after the effect of an event. -/
theorem Effect.withBus {s t : State} {b : Bus} (h : Effect s t) (queued : Changes .rule t { t with bus := b }) :
    Effect s { t with bus := b } := by
  cases h with
  | quiet quiet changes =>
    refine .quiet ?_ (changes.trans queued)
    cases quiet with
    | bus _ => exact .bus b
    | settings g l r _ => exact .settings g l r b
    | readings speed torque seated _ => exact .readings speed torque seated b
    | inputs x _ idle => exact .inputs x b idle
    | faulted _ blind completion silence idle => exact .faulted b blind completion silence idle
  | settled lim b' running own evaluated before => exact .settled lim b running own evaluated (before.trans queued)

/-! ### Commands -/

theorem changes_queueReplies (h : CmdHead) (n : Nat) (r : Result) (d : List (List Byte)) (s : State) :
    Changes .rule s (queueReplies h n r d s) := by
  unfold queueReplies
  induction d generalizing s with
  | nil => exact .refl
  | cons x d ih => exact (Change.enqueue _ (by simp)).chain.trans (ih _)

theorem changes_answer (h : CmdHead) (n : Nat) (a : Answer) : Changes .rule a.state (answer h n a) := by
  unfold answer
  split
  · exact changes_queueReplies h n _ _ _
  · exact .refl

/-- An answer to a command is a change of the transmit queue after its effect (11 R164, log 11). -/
theorem Effect.answer {s : State} (h : CmdHead) (n : Nat) {a : Answer} (effect : Effect s a.state) :
    Effect s (answer h n a) := by
  obtain ⟨q, shape⟩ := answer_shape h n a
  have queued := changes_answer h n a
  rw [shape] at queued ⊢
  exact effect.withBus queued

theorem effect_replyOnly (h : CmdHead) (n : Nat) (r : Result) (s : State) : Effect s (replyOnly h n r s) :=
  (Effect.refl s).withBus (Change.enqueue (.reply h.source n h.tag r []) (by simp)).chain

/-- A command is dropped, refused, or answered by its owner in READY on operands that passed the checks (11 R161,
R162). -/
theorem takeCommand_cases (c : Command) (h : CmdHead) (ops : List Byte) (s : State) :
    takeCommand c h ops s = s ∨ (∃ r, takeCommand c h ops s = replyOnly h c.number r s)
      ∨ (∃ args, s.life = .ready ∧ splitFields (c.sizes ops) ops = some args ∧ c.needs args s.cfg.roles = true
          ∧ c.range args s = none ∧ takeCommand c h ops s = answer h c.number (c.owner args s)) := by
  by_cases starting : s.life = .starting
  · exact .inl (takeCommand_starting starting c h ops)
  · cases fields : splitFields (c.sizes ops) ops with
    | none => exact .inr (.inl ⟨_, takeCommand_form starting fields h⟩)
    | some args =>
      rw [takeCommand_checks starting fields h]
      split
      · exact .inr (.inl ⟨_, rfl⟩)
      · split
        · exact .inr (.inl ⟨_, rfl⟩)
        · next ready =>
          split
          · exact .inr (.inl ⟨_, rfl⟩)
          · next needs =>
            split
            · exact .inr (.inl ⟨_, rfl⟩)
            · next range =>
              exact .inr (.inr ⟨args, by simpa using ready, rfl, by simpa using needs, range, rfl⟩)

theorem effect_takeCommand {c : Command} (h : CmdHead) {ops : List Byte} {s : State}
    (owner : ∀ args, s.life = .ready → splitFields (c.sizes ops) ops = some args → c.range args s = none →
      Effect s (c.owner args s).state) : Effect s (takeCommand c h ops s) := by
  rcases takeCommand_cases c h ops s with e | ⟨r, e⟩ | ⟨args, ready, fields, _, range, e⟩
  · rw [e]; exact .refl s
  · rw [e]; exact effect_replyOnly h _ r s
  · rw [e]; exact (owner args ready fields range).answer h _

end Sys2Proof.Machine
end

section
/-! PROOF. The commands of the catalogue as effects: what each owner does is a chain of changes before the units are evaluated,
or evaluates no unit. -/

namespace Sys2Proof.Machine

open Sys2Proof

/-! ### Entries of LOAD PLAN -/

theorem splitFields_length {ks : List Nat} {bs : List Byte} {args : List Nat} (h : splitFields ks bs = some args) :
    args.length = ks.length := by
  induction ks generalizing bs args with
  | nil => cases bs <;> simp_all [splitFields]
  | cons k ks ih =>
    unfold splitFields at h
    split at h
    · simp at h
    · obtain ⟨rest, hr, rfl⟩ := Option.map_eq_some_iff.1 h
      simp [ih hr]

theorem planEntries_length (l : List Nat) : (planEntries l).length = l.length / 2 := by
  induction l using planEntries.induct with
  | case1 p c rest ih => simp only [planEntries, List.length_cons, ih]; omega
  | case2 l short =>
    match l with
    | [] => simp [planEntries]
    | [_] => simp [planEntries]
    | p :: c :: rest => exact absurd rfl (short p c rest)

/-- The fields of LOAD PLAN: ring, count, and two for each entry of the count (11 R161). -/
theorem planSizes_fields {ops : List Byte} {args : List Nat} (h : splitFields (planSizes ops) ops = some args) :
    (planEntries (args.drop 2)).length = arg args 1 := by
  have length := splitFields_length h
  have isSome := (splitFields_isSome (planSizes ops) ops).1 (by simp [h])
  have count : arg args 1 = (ops.getD 2 0).toNat := by
    match ops with
    | a :: b :: c :: rest =>
      simp only [planSizes, splitFields] at h
      simp only [List.length_cons, List.drop, List.take] at h
      split at h
      · simp at h
      · obtain ⟨tail, ht, rfl⟩ := Option.map_eq_some_iff.1 h
        split at ht
        · simp at ht
        · obtain ⟨tail', _, rfl⟩ := Option.map_eq_some_iff.1 ht
          simp [arg, beNat]
    | [] => simp [planSizes] at isSome
    | [_] => simp [planSizes] at isSome
    | [_, _] => simp [planSizes] at isSome
  rw [planEntries_length, List.length_drop, length, count]
  simp [planSizes]

/-- An entry of LOAD PLAN comes in PENDING or EMPTY, and a placeholder carries no KEY (03 R41, R42). -/
theorem mem_planEntries {l : List Nat} {e : PlanEntry} (h : e ∈ planEntries l) :
    e.state ≠ .set ∧ (e.state = .empty → e.key = false) := by
  induction l using planEntries.induct with
  | case1 p c rest ih =>
    rcases List.mem_cons.1 h with rfl | h
    · unfold planEntry; split <;> simp
    · exact ih h
  | case2 l short => simp [planEntries] at h

theorem firstRefused_none {n i : Nat} {es : List PlanEntry} (h : firstRefused n i es = none) {j : Nat} {e : PlanEntry}
    (at_j : es[j]? = some e) : entryRefused n (j + 1 = es.length) e = false := by
  induction es generalizing i j with
  | nil => simp at at_j
  | cons x xs ih =>
    unfold firstRefused at h
    split at h
    · simp at h
    · next taken =>
      cases j with
      | zero =>
        obtain rfl : x = e := by simpa using at_j
        cases xs <;> simpa using taken
      | succ j =>
        have := ih h (by simpa using at_j)
        simpa using this

/-- The entries of a LOAD PLAN that passed its checks: 1 to 8, none SET, the KEY on the last alone (03 R41). -/
theorem planRange_entries {ops : List Byte} {args : List Nat} {s : State}
    (fields : splitFields (planSizes ops) ops = some args) (range : planRange args s = none) :
    1 ≤ (planEntries (args.drop 2)).length ∧ (planEntries (args.drop 2)).length ≤ 8
      ∧ ∀ j e, (planEntries (args.drop 2))[j]? = some e →
          e.state ≠ .set ∧ (e.key = true ↔ j + 1 = (planEntries (args.drop 2)).length) := by
  unfold planRange at range
  split at range
  · simp at range
  · next count =>
    rw [← planSizes_fields fields] at count
    simp only [Bool.or_eq_true, decide_eq_true_eq, not_or, Nat.not_lt] at count
    refine ⟨count.1, count.2, fun j e at_j => ?_⟩
    have taken := firstRefused_none (Option.map_eq_none_iff.1 range) at_j
    obtain ⟨unset, empty⟩ := mem_planEntries (List.mem_of_getElem? at_j)
    refine ⟨unset, ?_⟩
    unfold entryRefused at taken
    split at taken
    · next h => simp [empty h] ; simpa using taken
    · simp only [Bool.or_eq_false_iff, decide_eq_false_iff_not, ne_eq, not_not] at taken
      rw [taken.2, decide_eq_true_eq]

end Sys2Proof.Machine
end

section
/-! PROOF. Every command of the catalogue but RESTART as an effect. -/

namespace Sys2Proof.Machine

open Sys2Proof

/-- The effect of an event that evaluates the units at its end alone. -/
theorem Effect.of_ready (lim : Bool) {s e : State} (ready : s.life = .ready) (own : Changes .rule s e) :
    Effect s (settle lim e) := .of_running lim (running_of_ready ready) own .refl

section
variable {k : Phase}

/-! ### Margin watch and trips -/

theorem changes_marginWatch (s : State) : Changes k s (marginWatch s) := by
  unfold marginWatch
  split
  · split
    · exact (Change.buildFlags s.build.margin s.build.retry s.build.planMismatch false).chain
    · split
      · exact changes_abortWithdrawal s
      · exact (Change.buildFlags s.build.margin s.build.retry s.build.planMismatch true).chain.trans
          (changes_onBuildPart _ _)
      · exact .refl
  · exact .refl

theorem changes_retryAtArrival (s : State) : Changes k s (retryAtArrival s) := by
  unfold retryAtArrival
  split
  · split
    · exact .refl
    · exact (Change.buildFlags s.build.margin (some 0) s.build.planMismatch s.build.marginLow).chain
  · exact .refl

theorem changes_retryAtExpiry (s : State) : Changes k s (retryAtExpiry s) := by
  unfold retryAtExpiry
  split
  · exact (Change.buildFlags s.build.margin _ s.build.planMismatch s.build.marginLow).chain
  · exact .refl

end

/-- A pair that joins the trip memory, with the suspension its first pair brings (01 R15, 03 R46). -/
theorem changes_addTrip {s u : State} {p : TripPair}
    (taken : Change u .rule { s with view := { s.view with trips := withPair p s.view.trips } }) :
    Changes .rule u (addTrip p s) := by
  rcases setTrips_cases (withPair p s.view.trips) s with ⟨h, _⟩ | ⟨h, _⟩
  · exact taken.chain_eq h
  · rw [addTrip, h]; exact taken.chain.trans (changes_suspendBuild _)

theorem changes_stallDrive {s : State} (running : s.running = true) : Changes .rule s (stallDrive s) :=
  (changes_addTrip (p := (s.own, .stall))
    (Change.stall { s.drive with state := .stalled, command := 0, trim := 0, stallStart := none } rfl running)).tail
    (.enqueue (.trip .stall) (by simp))

theorem changes_tripThrust {s : State} (running : s.running = true) : Changes .rule s (tripThrust s) :=
  (changes_addTrip (p := (s.own, .thrust)) (Change.tripGroup running)).tail (.enqueue (.trip .thrust) (by simp))

/-! ### Thrust unit and trips -/

theorem effect_startAdvance (args : List Nat) {s : State} (ready : s.life = .ready) :
    Effect s (startAdvanceCommand.owner args s).state := by
  simp only [startAdvanceCommand]
  split
  · exact .of_ready false ready (Change.thrust _ (by rfl)).chain
  · exact .refl s

theorem effect_stopAdvance (args : List Nat) {s : State} (ready : s.life = .ready) :
    Effect s (stopAdvanceCommand.owner args s).state := .of_ready false ready (Change.thrust _ (by rfl)).chain

theorem effect_setAdvanceLimits (args : List Nat) {s : State} (ready : s.life = .ready) :
    Effect s (setAdvanceLimitsCommand.owner args s).state := .of_ready true ready (Change.thrust _ (by rfl)).chain

theorem effect_clearThrust {s : State} (ready : s.life = .ready) : Effect s (clearThrustOwner s).state := by
  unfold clearThrustOwner
  split
  · split
    · have removed : removeTrip (s.own, .thrust) (setMode .hold s)
          = { setMode .hold s with view := { s.view with trips := withoutPair (s.own, .thrust) s.view.trips } } :=
        removeTrip_eq _ _
      refine .of_ready false ready (((Change.rearmGroup (running_of_ready ready)).chain_eq removed).trans ?_)
      exact changes_decideRetract _
    · exact .refl s
  · exact .refl s

theorem effect_clearDrive {s : State} (ready : s.life = .ready) : Effect s (clearDriveOwner s).state := by
  unfold clearDriveOwner
  split
  · split
    · exact .of_ready false ready
        ((Change.rearmDrive _ (by simp [driveOff]) (running_of_ready ready)).chain_eq (removeTrip_eq _ _))
    · exact .refl s
  · exact .refl s

theorem effect_clearCabStop {s : State} (ready : s.life = .ready) : Effect s (clearCabStopOwner s).state := by
  refine .of_ready false ready ((Change.trips _ (running_of_ready ready) fun c station => ?_).chain_eq
    (removeTrip_eq _ _))
  simp [station]

theorem effect_clearTrip (args : List Nat) {s : State} (ready : s.life = .ready) :
    Effect s (clearTripCommand.owner args s).state := by
  show Effect s (clearTripOwner args s).state
  unfold clearTripOwner
  split
  · exact effect_clearThrust ready
  · exact effect_clearDrive ready
  · exact effect_clearCabStop ready

/-! ### Build unit -/

theorem effect_setMargin (args : List Nat) {s : State} (ready : s.life = .ready) :
    Effect s (setMarginCommand.owner args s).state :=
  .of_ready false ready
    (((Change.buildFlags _ s.build.retry s.build.planMismatch s.build.marginLow).chain.trans
      (changes_marginWatch _)).trans (changes_decideRetract _))

theorem changes_lowerMismatches {s : State} (b : Build)
    (free : s.build.state = .ringOpen ∨ (s.build.state = .suspended ∧ currentEntryState s ≠ some .claimed))
    (state : b.state = s.build.state)
    (kept : PlanInOrder s → PlanInOrder { s with build := b }) :
    Changes .rule s (lowerMismatches { s with build := b }) :=
  ((Change.plan b free state kept).chain.tail (.buildFlags b.margin b.retry false b.marginLow)).tail (.erector _)

theorem planInOrder_loadOpen {ring : Nat} {es : List PlanEntry} {s : State} (ready : s.life = .ready)
    (some_ : 1 ≤ es.length) (most : es.length ≤ 8)
    (entries : ∀ j e, es[j]? = some e → e.state ≠ .set ∧ (e.key = true ↔ j + 1 = es.length)) :
    PlanInOrder { s with build := { s.build with planRing := ring, entries := es, index := 0 } } :=
  ⟨most, fun _ => ready, fun j e at_j => ⟨by simp [(entries j e at_j).1], (entries j e at_j).2⟩, .inl some_,
    fun _ => rfl⟩

theorem sameEntries_iff {hs gs : List PlanEntry} (h : sameEntries hs gs = true) {j : Nat} {e g : PlanEntry}
    (at_j : hs[j]? = some e) (given : gs[j]? = some g) : sameEntry e g = true := by
  induction hs generalizing gs j with
  | nil => simp at at_j
  | cons x xs ih =>
    cases gs with
    | nil => simp at given
    | cons y ys =>
      simp only [sameEntries, Bool.and_eq_true] at h
      cases j with
      | zero =>
        obtain rfl : x = e := by simpa using at_j
        obtain rfl : y = g := by simpa using given
        exact h.1
      | succ j => exact ih h.2 (by simpa using at_j) (by simpa using given)

/-- The SET entries kept and the others replaced stand in order (03 R43). -/
theorem planInOrder_loadSuspended {es : List PlanEntry} {s : State} (ready : s.life = .ready)
    (most : es.length ≤ 8) (above : s.build.index < es.length)
    (same : sameEntries (s.build.entries.take s.build.index) es = true)
    (entries : ∀ j e, es[j]? = some e → e.state ≠ .set ∧ (e.key = true ↔ j + 1 = es.length)) (h : PlanInOrder s) :
    PlanInOrder
      { s with
        build := { s.build with entries := s.build.entries.take s.build.index ++ es.drop s.build.index } } := by
  obtain ⟨_, _, held, inside, ringOpen⟩ := h
  have taken : (s.build.entries.take s.build.index).length = s.build.index := by
    rcases inside with inside | ⟨zero, none⟩
    · simp; omega
    · simp [zero]
  have length : (s.build.entries.take s.build.index ++ es.drop s.build.index).length = es.length := by
    rw [List.length_append, taken, List.length_drop]; omega
  refine ⟨length.trans_le most, fun _ => ready, fun j e at_j => ?_, .inl (by dsimp only; omega), ringOpen⟩
  dsimp only at at_j ⊢
  rw [length]
  by_cases below : j < s.build.index
  · rw [List.getElem?_append_left (by omega)] at at_j
    obtain ⟨g, given⟩ : ∃ g, es[j]? = some g := ⟨_, List.getElem?_eq_getElem (by omega)⟩
    have agrees := sameEntries_iff same at_j given
    rw [List.getElem?_take_of_lt below] at at_j
    simp only [sameEntry, Bool.and_eq_true, decide_eq_true_eq] at agrees
    obtain ⟨⟨⟨_, _⟩, key⟩, _⟩ := agrees
    exact ⟨(held j e at_j).1, by rw [key]; exact (entries j g given).2⟩
  · rw [List.getElem?_append_right (by omega), taken, List.getElem?_drop] at at_j
    have given : es[j]? = some e := by rw [← at_j]; congr 1; omega
    exact ⟨by simp [(entries j e given).1, below], (entries j e given).2⟩

theorem effect_loadPlan {ops : List Byte} (args : List Nat) {s : State} (ready : s.life = .ready)
    (fields : splitFields (planSizes ops) ops = some args) (range : planRange args s = none) :
    Effect s (loadPlanCommand.owner args s).state := by
  obtain ⟨some_, most, entries⟩ := planRange_entries fields range
  simp only [loadPlanCommand]
  split
  · exact .refl s
  · next ringOpen =>
    split
    · exact .refl s
    · exact .of_ready false ready (changes_lowerMismatches _ (.inl ringOpen) rfl fun _ =>
        planInOrder_loadOpen ready some_ most entries)
  · next suspended =>
    split
    · exact .refl s
    · unfold loadSuspended
      split
      · exact .refl s
      · next free =>
        split
        · exact .refl s
        · next above =>
          split
          · exact .refl s
          · next same =>
            simp only [Bool.or_eq_true, decide_eq_true_eq, not_or] at free
            exact .of_ready false ready (changes_lowerMismatches _ (.inr ⟨suspended, free.1⟩) rfl
              (planInOrder_loadSuspended ready most (by omega) (by simpa using same) entries))

theorem changes_buildBegun {s : State} (ringOpen : s.build.state = .ringOpen) (ready : s.life = .ready)
    (plan : s.build.entries ≠ []) : Changes .rule s (buildBegun s) := by
  let a : State := { s with build := { s.build with retry := none }, thrust.holds.stopped := true }
  have flags : Changes .rule s a :=
    (Change.buildFlags s.build.margin none s.build.planMismatch s.build.marginLow).chain.tail (.thrust _ (by rfl))
  exact (flags.tail (.begin ringOpen ready plan)).tail (.record _ rfl id)

theorem effect_beginBuild (args : List Nat) {s : State} (ready : s.life = .ready) :
    Effect s (beginBuildCommand.owner args s).state := by
  simp only [beginBuildCommand]
  split
  · exact .refl s
  · next permitted =>
    rw [beginRefusal_eq] at permitted
    split at permitted
    · simp at permitted
    · next ringOpen =>
      split at permitted
      · simp at permitted
      · split at permitted
        · simp at permitted
        · next plan =>
          exact .of_ready false ready ((changes_buildBegun (by simpa using ringOpen) ready fun none =>
            plan (.inl none)).trans (changes_decideRetract _))

theorem effect_suspendBuild (args : List Nat) {s : State} (ready : s.life = .ready) :
    Effect s (suspendBuildCommand.owner args s).state := by
  simp only [suspendBuildCommand]
  split
  · exact .of_ready false ready (changes_suspendBuild s)
  · exact .refl s

theorem effect_resumeBuild (args : List Nat) {s : State} (ready : s.life = .ready) :
    Effect s (resumeBuildCommand.owner args s).state := by
  simp only [resumeBuildCommand]
  split
  · exact .refl s
  · exact .refl s
  · next suspended =>
    unfold resumeOwner
    split
    · exact .refl s
    · exact .refl s
    · next pending =>
      split
      · exact .refl s
      · split
        · exact .refl s
        · exact .of_ready false ready
            (((Change.buildFlags s.build.margin none false s.build.marginLow).chain.tail
              (.resume suspended pending)).trans (changes_decideRetract _))
    · exact .refl s

theorem changes_abandonBuild (s : State) : Changes .rule s (abandonBuild s) := by
  refine .trans ?_ (changes_onBuildPart _ _)
  let b : Build :=
    { (pressIfWithdrawn s).build with
      state := .ringOpen, entries := [], planRing := 0, index := 0, retry := none, planMismatch := false,
      marginLow := false }
  exact ((changes_pressIfWithdrawn s).tail (.abandon (withdrawn_pressIfWithdrawn s) b ⟨rfl, rfl, rfl⟩)).tail
    (.erector _)

theorem effect_abandonBuild (args : List Nat) {s : State} (ready : s.life = .ready) :
    Effect s (abandonBuildCommand.owner args s).state := by
  simp only [abandonBuildCommand]
  split
  · exact .refl s
  · exact .of_ready false ready (changes_abandonBuild s)

/-! ### Erector and drive -/

theorem effect_discardPiece (args : List Nat) {s : State} (ready : s.life = .ready) :
    Effect s (discardPieceCommand.owner args s).state := by
  simp only [discardPieceCommand]
  split
  · exact .refl s
  · split
    · exact .refl s
    · exact .of_ready false ready (Change.erector _).chain

theorem effect_startOwner (v : Nat) (dir : Direction) (r : Result) {s : State} (ready : s.life = .ready) :
    Effect s (startOwner v dir r s).state := by
  unfold startOwner
  split
  · exact .refl s
  · exact .refl s
  · next starting =>
    split
    · exact .refl s
    · split
      · exact .of_ready false ready (Change.drive _ (by simp [starting])).chain
      · exact .of_ready false ready (Change.drive _ (by simp)).chain
  · next running =>
    split
    · exact .refl s
    · split
      · exact .of_ready false ready (Change.drive _ (by simp [running])).chain
      · exact .of_ready false ready (Change.drive _ (by simp)).chain
  · next off =>
    split
    · exact .refl s
    · split
      · exact .refl s
      · split
        · exact .refl s
        · exact .of_ready false ready (Change.drive _ (by simp [off])).chain
  · next stopping =>
    split
    · exact .refl s
    · split
      · exact .refl s
      · split
        · exact .refl s
        · exact .of_ready false ready (Change.drive _ (by simp [stopping])).chain

theorem effect_startCutterhead (args : List Nat) {s : State} (ready : s.life = .ready) :
    Effect s (startCutterheadCommand.owner args s).state := effect_startOwner _ _ _ ready

theorem effect_stopCutterhead (args : List Nat) {s : State} (ready : s.life = .ready) :
    Effect s (stopCutterheadCommand.owner args s).state := by
  simp only [stopCutterheadCommand]
  split
  · next turns => exact .of_ready false ready (changes_stopDrive (by simpa using turns))
  · exact .refl s

theorem changes_judgeStallTimer {s : State} (running : s.running = true) : Changes .rule s (judgeStallTimer s) := by
  unfold judgeStallTimer
  split
  · exact .refl
  · split
    · exact (Change.drive _ (by simp)).chain
    · split
      · exact changes_stallDrive running
      · exact .refl

theorem effect_setDriveLimits (args : List Nat) {s : State} (ready : s.life = .ready) :
    Effect s (setDriveLimitsCommand.owner args s).state := by
  refine .of_ready false ready (.trans (Change.drive _ (by rfl)).chain (changes_judgeStallTimer ?_))
  exact running_of_ready ready

/-! ### Screw and train -/

theorem effect_setFacePressure (args : List Nat) {s : State} (ready : s.life = .ready) :
    Effect s (setFacePressureCommand.owner args s).state :=
  .of_ready false ready (Change.screw _ (by rfl) (by rfl) (by rfl)).chain

/-- The cars of a TRAIN IN stand in fill order, each of them empty (07 R109). -/
theorem carsInOrder_newTrain {count capacity : Nat} (some_ : 0 < capacity) (isOver : Bool) :
    carsInOrder (newTrain count capacity isOver)
      ∧ ((newTrain count capacity isOver).map Car.filled).sum = 0 := by
  refine ⟨⟨some_, fun d later => ?_⟩, ?_⟩
  · rw [List.eq_of_mem_replicate later]; exact ⟨rfl, rfl, some_⟩
  · simp [newTrain, emptyCar]

theorem effect_trainIn (args : List Nat) {s : State} (ready : s.life = .ready)
    (range : trainInCommand.range args s = none) : Effect s (trainInCommand.owner args s).state := by
  simp only [trainInCommand, ite_eq_right_iff, reduceCtorEq, imp_false, Bool.or_eq_true, decide_eq_true_eq,
    not_or, Nat.not_lt] at range ⊢
  split
  · exact .refl s
  · next empty =>
    refine .of_ready false ready (Change.train _ fun ⟨_, _, most, balance⟩ => ?_).chain
    have capacity : 0 < clamp 1000 40000 (arg args 1) := by unfold clamp; omega
    obtain ⟨order, none_⟩ := carsInOrder_newTrain (count := arg args 0) capacity s.train.reasons.isOver
    have noCars : s.train.cars = [] := by simpa using empty
    refine ⟨?_, order, most, ?_⟩
    · simp [newTrain]; omega
    · simpa [none_, noCars] using balance

theorem effect_trainOut (args : List Nat) {s : State} (ready : s.life = .ready) :
    Effect s (trainOutCommand.owner args s).state :=
  .of_ready false ready (Change.train _ fun _ => ⟨by simp, by trivial, by simp, by simp⟩).chain

theorem changes_beltSilent (s : State) : Changes .rule s (beltSilent s) :=
  (Change.screw { s.screw with beltStart := none } rfl rfl rfl).chain.tail
    (.pace { s.train.reasons with beltSilent := true } s.train.pace)

theorem effect_setPaceLevels (args : List Nat) {s : State} (ready : s.life = .ready) :
    Effect s (setPaceLevelsCommand.owner args s).state := by
  let hold := clamp 0 200000 (arg args 0)
  let set : State :=
    { s with
      train := { s.train with holdLevel := hold, slowLevel := max (clamp 0 200000 (arg args 1)) hold }
      screw := { s.screw with beltTime := clamp 5 120 (arg args 2) } }
  have levels : Changes .rule s set := (Change.train set.train id).chain.tail (.screw set.screw rfl rfl rfl)
  refine .of_ready false ready (levels.trans ?_)
  split
  · split
    · exact changes_beltSilent set
    · exact .refl
  · exact .refl

/-! ### Grout unit -/

theorem effect_setGrout (args : List Nat) (s : State) : Effect s (setGroutCommand.owner args s).state :=
  .quiet (.settings _ s.records.waitingLimits s.records.history s.bus) (Change.grout _).chain

theorem effect_armLine (args : List Nat) {s : State} (ready : s.life = .ready) :
    Effect s (armLineCommand.owner args s).state := by
  show Effect s (armOwner s).state
  unfold armOwner
  split
  · exact .of_ready false ready (Change.grout _).chain
  · exact .refl s
  · exact .refl s
  · split
    · exact .refl s
    · split
      · exact .refl s
      · exact .of_ready false ready (Change.grout _).chain
  · exact .refl s
  · exact .refl s

theorem changes_startFlush (s : State) : Changes .rule s (startFlush s) := (Change.grout _).chain

theorem changes_endFlush (s : State) : Changes .rule s (endFlush s) := (Change.grout _).chain

theorem effect_closeLine (args : List Nat) {s : State} (ready : s.life = .ready) :
    Effect s (closeLineCommand.owner args s).state := by
  have closed : Changes .rule s (if s.grout.used then startFlush s else setLine .closed s) := by
    split
    · exact changes_startFlush s
    · exact (Change.grout _).chain
  show Effect s (closeOwner s).state
  unfold closeOwner
  split
  · exact .of_ready false ready closed
  · exact .of_ready false ready closed
  · exact .refl s
  · exact .refl s
  · exact .refl s
  · exact .refl s

theorem effect_flushLine (args : List Nat) {s : State} (ready : s.life = .ready) :
    Effect s (flushLineCommand.owner args s).state := by
  show Effect s (flushOwner s).state
  unfold flushOwner
  split
  · exact .of_ready false ready (changes_startFlush s)
  · exact .of_ready false ready (changes_startFlush s)
  · split
    · exact .of_ready false ready (changes_startFlush s)
    · exact .refl s
  · exact .refl s
  · exact .refl s
  · exact .refl s

theorem changes_potLifeExpires (s : State) : Changes .rule s (potLifeExpires s) := by
  unfold potLifeExpires
  split
  · exact changes_startFlush s
  · exact changes_startFlush s
  · exact (Change.grout _).chain
  · exact (Change.grout _).chain

theorem changes_judgePotLife (s : State) : Changes .rule s (judgePotLife s) := by
  unfold judgePotLife
  split
  · split
    · exact changes_potLifeExpires s
    · exact .refl
  · exact .refl

theorem changes_judgeFlush (s : State) : Changes .rule s (judgeFlush s) := by
  unfold judgeFlush
  split
  · split
    · exact changes_endFlush s
    · exact .refl
  · exact .refl

theorem effect_setGroutTimes (args : List Nat) {s : State} (ready : s.life = .ready) :
    Effect s (setGroutTimesCommand.owner args s).state :=
  .of_ready false ready (((Change.grout _).chain.trans (changes_judgeFlush _)).trans (changes_judgePotLife _))

theorem effect_setGroutMinimum (args : List Nat) {s : State} (ready : s.life = .ready) :
    Effect s (setGroutMinimumCommand.owner args s).state := .of_ready false ready (Change.grout _).chain

/-! ### Ring record unit -/

theorem effect_setBalanceLimits (args : List Nat) (s : State) :
    Effect s (setBalanceLimitsCommand.owner args s).state :=
  .quiet (.settings s.grout.waiting _ s.records.history s.bus) (Change.waitingLimits _).chain

theorem effect_clearHistory (args : List Nat) (s : State) : Effect s (clearHistoryCommand.owner args s).state :=
  .quiet (.settings s.grout.waiting s.records.waitingLimits [] s.bus) Change.clearHistory.chain

theorem effect_setRing (args : List Nat) {s : State} (ready : s.life = .ready) :
    Effect s (setRingCommand.owner args s).state := by
  simp only [setRingCommand]
  split
  · next ringOpen =>
    refine .of_ready false ready ?_
    refine (((Change.grout { s.grout with tail := none }).chain.tail
      (.openRecord (arg args 0) .setRing [] (.inl rfl))).tail (.openUnits (.inr (.inr ringOpen)))).trans ?_
    exact changes_setSeq .standby _
  · exact .refl s

/-! ### The catalogue -/

/-- Every command of the catalogue takes the station through an effect (11 R161, section 11.3). -/
theorem effect_catalogue {n : Nat} {c : Command} (h : catalogue n = some c) (head : CmdHead) (ops : List Byte)
    (s : State) : Effect s (takeCommand c head ops s) := by
  refine effect_takeCommand head fun args ready fields range => ?_
  unfold catalogue at h
  split at h <;> simp only [Option.some.injEq, reduceCtorEq] at h <;> subst h
  · exact effect_startAdvance args ready
  · exact effect_stopAdvance args ready
  · exact effect_setAdvanceLimits args ready
  · exact effect_clearTrip args ready
  · exact effect_setMargin args ready
  · exact effect_loadPlan args ready fields range
  · exact effect_beginBuild args ready
  · exact effect_suspendBuild args ready
  · exact effect_resumeBuild args ready
  · exact effect_abandonBuild args ready
  · exact effect_discardPiece args ready
  · exact effect_startCutterhead args ready
  · exact effect_stopCutterhead args ready
  · exact effect_setDriveLimits args ready
  · exact effect_setFacePressure args ready
  · exact effect_setBalanceLimits args s
  · exact effect_trainIn args ready range
  · exact effect_trainOut args ready
  · exact effect_setPaceLevels args ready
  · exact effect_setGrout args s
  · exact effect_armLine args ready
  · exact effect_closeLine args ready
  · exact effect_flushLine args ready
  · exact effect_setGroutTimes args ready
  · exact effect_setGroutMinimum args ready
  · exact .refl s
  · exact .refl s
  · exact effect_clearHistory args s
  · exact effect_setRing args ready

end Sys2Proof.Machine
end

section
/-! PROOF. The events of the line, the timers and the field inputs as effects. -/

namespace Sys2Proof.Machine

open Sys2Proof

/-- The effect of an event that evaluates the units at its end alone. -/
theorem Effect.of_rules (lim : Bool) {s e : State} (running : s.running = true) (own : Changes .rule s e) :
    Effect s (settle lim e) := .of_running lim running own .refl

/-! ### Notices of other stations -/

theorem changes_conflictEval (s : State) : Changes .rule s (conflictEval s) := (Change.conflicts _ _).chain

theorem changes_standAside (s : State) : Changes .rule s (standAside s) := by
  unfold standAside
  split
  · next conflict =>
    simp only [Bool.and_eq_true] at conflict
    exact changes_seqStep fun free => absurd conflict.1 (by simp [free])
  · exact .refl

theorem changes_leaveBlind (s : State) : Changes .rule s (leaveBlind s) := by
  unfold leaveBlind
  split
  · exact Change.unblind.chain
  · exact .refl

theorem changes_hearSource (src : Nat) (s : State) : Changes .rule s (hearSource src s) := by
  unfold hearSource
  split
  · exact (Change.bus _ (by rfl) (by rfl)).chain
  · exact .refl

theorem changes_enterBlind {s : State} (ready : s.life = .ready) : Changes .rule s (enterBlind s) := by
  rcases enterBlind_cases s with ⟨_, h⟩ | ⟨_, h⟩
  · exact .of_eq h
  · rw [h]; exact (Change.blind ready).chain.trans (changes_suspendBuild _)

theorem changes_raiseLineFault {s : State} : Changes .rule s (raiseLineFault s) := by
  have raised : Changes .rule s
      { s with bus := { s.bus with lineFault := true }, view := { s.view with completion := false } } :=
    (Change.bus { s.bus with lineFault := true } rfl rfl).chain.tail (.completion false)
  unfold raiseLineFault
  dsimp only
  split
  · next ready => exact raised.trans (changes_enterBlind ready)
  · exact raised

theorem changes_countFault (s : State) : Changes .rule s (countFault s) := by
  have counted : Changes .rule s { s with bus := { s.bus with faults := min (s.bus.faults + 1) 16 } } :=
    (Change.bus _ (by rfl) (by rfl)).chain
  rcases countFault_cases s with h | ⟨_, _, h⟩
  · rw [h]; exact counted
  · rw [h]; exact counted.trans changes_raiseLineFault

theorem effect_foreignNotice (isState : Bool) (s : State) : Effect s (foreignNotice isState s) := by
  have heard : Changes .rule s (if isState then hearSource s.own s else s) := by
    split
    · exact changes_hearSource _ s
    · exact .refl
  unfold foreignNotice
  split
  · next running =>
    refine .of_rules false running (.trans ?_ (changes_countFault _))
    split
    · next listening => exact heard.tail (.listen 0 (by cases isState <;> simp [listening]))
    · exact heard
  · exact .refl s

theorem entry_mem_set {l : List PeerEntry} {src a : Nat} {e x : PeerEntry} (h : (l.set src x)[a]? = some e) :
    (a = src ∧ e = x) ∨ l[a]? = some e := by
  rw [List.getElem?_set] at h
  split at h
  · next same =>
    split at h
    · exact .inl ⟨same.symm, by simpa using h.symm⟩
    · simp at h
  · exact .inr h

/-- A body stored for a taken source stands in order (01 R2, R3). -/
theorem planInOrder_storeBody {s : State} {src : Nat} (body : StateBody) (p : Option Pace) (running : s.running = true)
    (taken : takenSource s src = true) (h : PeersInOrder s) :
    PeersInOrder
      { s with
        view :=
          { s.view with
            peers := s.view.peers.set src { held := some { body := body, age := 0, fresh := true }, pace := p } } } := by
  obtain ⟨below, foreign⟩ : src < s.cfg.n ∧ src ≠ s.own := by simpa [takenSource] using taken
  refine ⟨by simpa using h.1, fun a e held at_a is => ?_⟩
  rcases entry_mem_set at_a with ⟨rfl, rfl⟩ | before
  · obtain rfl : _ = held := by simpa using is
    exact ⟨running, below, foreign, by simp, by simp⟩
  · exact h.2 a e held before is

/-- The STATE of another station leaves the own pairs of the trip memory alone (01 R15, R16). -/
theorem own_mem_tripsAfter {src own : Nat} (foreign : src ≠ own) (body : StateBody) (l : List TripPair)
    (c : TripCause) : (own, c) ∈ tripsAfter src body l ↔ (own, c) ∈ l := by
  have kept : ∀ (p : TripPair) (m : List TripPair), p.1 = src → ((own, c) ∈ withPair p m ↔ (own, c) ∈ m) := by
    intro p m of_src
    unfold withPair
    split
    · rfl
    · simp [Prod.ext_iff, of_src, foreign.symm]
  unfold tripsAfter
  dsimp only
  have filtered : (own, c) ∈ l.filter (fun q => q.1 ≠ src || q.2 = .cabStop || bodyLists body q.2) ↔ (own, c) ∈ l := by
    simp [foreign.symm]
  split <;> split
  · rw [kept _ _ rfl, kept _ _ rfl, filtered]
  · rw [kept _ _ rfl, filtered]
  · rw [kept _ _ rfl, filtered]
  · rw [filtered]

theorem changes_storeBody {s : State} {src : Nat} (body : StateBody) (running : s.running = true)
    (taken : takenSource s src = true) : Changes .rule s (storeBody src body s) :=
  (((Change.peers _ (planInOrder_storeBody body (some body.pace) running taken)).chain).tail (.heard true)).tail
    (.bus { s.bus with lastSource := some src } rfl rfl)

theorem changes_stateCatchUp (body : StateBody) (s : State) : Changes .eval s (stateCatchUp body s) := by
  unfold stateCatchUp
  split
  · next ahead =>
    split
    · next inPlan =>
      simp only [Bool.and_eq_true, decide_eq_true_eq] at ahead
      exact changes_catchUp (fun _ => inPlan) (by omega) ahead.1
    · exact changes_raiseMismatch s
  · exact .refl

theorem changes_followSuspension (old : Option StateBody) (body : StateBody) (s : State) :
    Changes .eval s (followSuspension old body s) := by
  unfold followSuspension
  split
  · exact changes_suspendBuild s
  · exact .refl

theorem changes_adoptRing {r : Nat} {s : State} (higher : s.records.ring < r ∨ s.records.ring = 65535) :
    Changes .eval s (adoptRing r s) := by
  unfold adoptRing
  split
  · next ringOpen => exact changes_closeRing _ higher (.inr (.inr ringOpen))
  · exact ((changes_onBuildPart _ s).trans (changes_pressIfWithdrawn _)).trans
      (changes_closeRing _ (by simpa [onBuildPart] using higher) (.inl (withdrawn_pressIfWithdrawn _)))

theorem changes_openRing {r : Nat} (c : OpeningCause) {s : State} (listening : s.life = .listening)
    (higher : s.records.ring < r) : Changes .rule s (openRing r c s) :=
  ((Change.grout { s.grout with tail := none }).chain.tail
    (.openRecord r c s.records.history (.inr ⟨rfl, higher⟩))).tail (.openUnits (.inr (.inl (by simp [listening]))))

/-- What a ring number does: the ring opened without a close in LISTENING, or a close with its evaluation, a catch-up or a
suspension in READY (03 R47, R57, R62, 12 R169). -/
theorem changes_ringArrival (src : Nat) (old : Option StateBody) (body : StateBody) (s : State) :
    ∃ m, Changes .rule s m ∧ Changes .eval m (ringArrival src old body s) := by
  unfold ringArrival
  split
  · next listening =>
    split
    · next higher => exact ⟨_, changes_openRing _ listening higher, .refl⟩
    · exact ⟨s, .refl, .refl⟩
  · refine ⟨s, .refl, ?_⟩
    split
    · next higher => exact changes_adoptRing (.inl higher)
    · split
      · next last => exact changes_adoptRing (.inr (by simp [lastRingClosed] at last; exact last.1.1.1.1.1))
      · split
        · exact (changes_stateCatchUp body s).trans (changes_followSuspension _ _ _)
        · exact .refl
  · exact ⟨s, .refl, .refl⟩

theorem effect_takeState {src : Nat} (body : StateBody) {s : State} (running : s.running = true)
    (taken : takenSource s src = true) : Effect s (takeState src body s) := by
  have foreign : src ≠ s.own := by simp [takenSource] at taken; exact taken.2
  have known : Changes .rule s (leaveBlind (standAside (conflictEval
      (setTrips (tripsAfter src body s.view.trips) (storeBody src body s))))) := by
    refine ((changes_storeBody body running taken).trans (changes_setTrips running fun c _ => ?_)).trans
      (((changes_conflictEval _).trans (changes_standAside _)).trans (changes_leaveBlind _))
    exact own_mem_tripsAfter foreign body s.view.trips c
  obtain ⟨m, opened, rung⟩ := changes_ringArrival src (storedBody s src) body
    (leaveBlind (standAside (conflictEval (setTrips (tripsAfter src body s.view.trips) (storeBody src body s)))))
  exact .of_running true running (known.trans opened)
    ((rung.trans (changes_retryAtArrival _)).trans ((changes_marginWatch _).trans (changes_decideRetract _)))

theorem effect_stateArrival (src : Nat) (body : StateBody) (s : State) : Effect s (stateArrival src body s) := by
  unfold stateArrival
  split
  · exact effect_foreignNotice true s
  · split
    · next taken =>
      simp only [Bool.and_eq_true] at taken
      exact effect_takeState body taken.1 taken.2
    · exact .refl s

theorem own_mem_withPair {own src : Nat} {c d : TripCause} (other : (own, c) ≠ (src, d)) (l : List TripPair) :
    (own, c) ∈ withPair (src, d) l ↔ (own, c) ∈ l := by
  unfold withPair
  split
  · rfl
  · rw [List.mem_append, List.mem_singleton]; exact or_iff_left other

theorem effect_tripArrival (src : Nat) (cause : TripCause) (s : State) : Effect s (tripArrival src cause s) := by
  unfold tripArrival
  split
  · exact effect_foreignNotice false s
  · next foreign =>
    split
    · next running =>
      split
      · split
        · exact .of_rules false running
            (changes_setTrips running fun c station => own_mem_withPair (by simp [station]) _)
        · exact .refl s
      · split
        · exact .of_rules false running
            (changes_setTrips running fun c _ => own_mem_withPair (by simp [Ne.symm foreign]) _)
        · exact .refl s
    · exact .refl s

/-- A pace stored for an entry keeps what is held of it (01 R5). -/
theorem peersInOrder_storePace (src : Nat) (p : Pace) {s : State} (h : PeersInOrder s) :
    PeersInOrder (storePace src p s) := by
  refine ⟨by simpa [storePace] using h.1, fun a e held at_a is => ?_⟩
  rcases entry_mem_set at_a with ⟨rfl, rfl⟩ | before
  · have inRange : a < s.view.peers.length := by
      have := (List.getElem?_eq_some_iff.1 at_a).1
      simpa [storePace] using this
    refine h.2 a _ held (List.getElem?_eq_getElem inRange) ?_
    simpa [entryOf, List.getElem?_eq_getElem inRange] using is
  · exact h.2 a e held before is

theorem effect_paceArrival (src : Nat) (p : Pace) (s : State) : Effect s (paceArrival src p s) := by
  unfold paceArrival
  split
  · exact effect_foreignNotice false s
  · split
    · next taken =>
      simp only [Bool.and_eq_true] at taken
      exact .of_rules true taken.1 (Change.peers _ (peersInOrder_storePace src p)).chain
    · exact .refl s

theorem effect_stepArrival (src : Nat) (a : StepAction) (ring index : Nat) (s : State) :
    Effect s (stepArrival src a ring index s) := by
  unfold stepArrival
  split
  · exact effect_foreignNotice false s
  · split
    · next taken =>
      simp only [Bool.and_eq_true, decide_eq_true_eq] at taken
      exact .of_running false (running_of_ready taken.1) .refl (changes_takeStep (fun _ => rfl) ring index s)
    · exact .refl s

/-! ### Notice period -/

theorem Change.time {s : State} (now : Nat) (noticeDue controlDue driveDue : Option Nat)
    (notice : noticeDue.isSome = s.clock.noticeDue.isSome) (control : controlDue.isSome = s.clock.controlDue.isSome)
    (drive : driveDue.isSome = s.clock.driveDue.isSome) :
    Changes .rule s
      { s with clock := { now := now, noticeDue := noticeDue, controlDue := controlDue, driveDue := driveDue } } :=
  (Change.clock _ notice control drive).chain

/-- Aged entries stand in order (01 R4). -/
theorem peersInOrder_ageView {s : State} (h : PeersInOrder s) : PeersInOrder (ageView s) := by
  refine ⟨by simpa [ageView] using h.1, fun a e held at_a is => ?_⟩
  obtain ⟨before, at_before, rfl⟩ := Option.map_eq_some_iff.1 (List.getElem?_map .. ▸ at_a)
  unfold ageEntry at is
  split at is
  · next none => simp [none] at is
  · next heard was =>
    obtain ⟨running, below, foreign, bound, fresh⟩ := h.2 a before heard at_before was
    obtain rfl := Option.some.inj is
    refine ⟨running, below, foreign, by simp, ?_⟩
    show (heard.fresh && decide (min (heard.age + 1) 255 ≤ s.cfg.k)) = true ↔ min (heard.age + 1) 255 ≤ s.cfg.k
    rw [Bool.and_eq_true, decide_eq_true_eq, fresh]
    omega

theorem silenceAfter_le (s : State) : silenceAfter s ≤ s.cfg.k := by
  unfold silenceAfter
  split
  · omega
  · split <;> omega

theorem changes_silenceEval (s : State) : Changes .rule s (silenceEval s) := by
  unfold silenceEval
  split
  · next ready =>
    have counted := (Change.silence (silenceAfter s) ready (silenceAfter_le s)).chain
    dsimp only
    split
    · exact counted.trans (changes_enterBlind ready)
    · exact counted
  · exact .refl

theorem changes_countListen (s : State) : Changes .rule s (countListen s) := by
  unfold countListen
  split
  · next listening => exact (Change.listen _ listening).chain
  · exact .refl

theorem changes_joinLine (s : State) : Changes .rule s (joinLine s) := by
  unfold joinLine
  split
  · next joins =>
    simp only [Bool.and_eq_true, decide_eq_true_eq] at joins
    obtain ⟨⟨listening, count⟩, probed⟩ := joins
    have joined := (Change.ready listening count probed).chain
    unfold becomeReady
    dsimp only
    split
    · exact joined.trans (changes_enterBlind rfl)
    · exact joined
  · exact .refl

theorem changes_periodView {d : Nat} {s : State} (due : s.clock.noticeDue = some d) : Changes .rule s (periodView d s) := by
  unfold periodView
  refine (Change.time (s := s) (max s.clock.now d) (some (d + s.cfg.tn)) s.clock.controlDue s.clock.driveDue
    (by simp [due]) rfl rfl).trans ?_
  refine ((Change.peers _ peersInOrder_ageView).chain.trans (changes_silenceEval _)).trans ?_
  exact ((changes_conflictEval _).trans (changes_standAside _)).trans
    ((changes_countListen _).trans (changes_joinLine _))

/-- Queueing a STATE changes the bus interface alone (10 R158). -/
theorem queueState_eq (s : State) : ∃ b, queueState s = { s with bus := b } := by
  rcases queueState_cases s with h | h | ⟨_, _, h⟩
  · exact ⟨s.bus, h⟩
  · exact ⟨_, h⟩
  · exact ⟨_, h⟩

/-- What the rules do at an expiry of the notice-period timer (01 R4, R17, 03 R52 to R54). -/
def periodDone (d : Nat) (s : State) : State := decideRetract (marginWatch (retryAtExpiry (periodView d s)))

theorem changes_periodDone {d : Nat} {s : State} (due : s.clock.noticeDue = some d) :
    Changes .rule s (periodDone d s) :=
  ((changes_periodView due).trans (changes_retryAtExpiry _)).trans
    ((changes_marginWatch _).trans (changes_decideRetract _))

/-- An expiry of a running notice-period timer (10 R158). -/
theorem noticePeriodExpiry_due {d : Nat} {s : State} (due : s.clock.noticeDue = some d) :
    noticePeriodExpiry s = queueState (settle true (periodDone d s)) := by
  simp only [noticePeriodExpiry, due]
  rfl

theorem noticePeriodExpiry_idle {s : State} (idle : s.clock.noticeDue = none) : noticePeriodExpiry s = s := by
  simp only [noticePeriodExpiry, idle]

theorem effect_noticePeriodExpiry {s : State} (running : s.running = true) : Effect s (noticePeriodExpiry s) := by
  cases due : s.clock.noticeDue with
  | none => rw [noticePeriodExpiry_idle due]; exact .refl s
  | some d =>
    rw [noticePeriodExpiry_due due]
    have settled : Effect s (settle true (periodDone d s)) := .of_rules true running (changes_periodDone due)
    obtain ⟨b, queued⟩ := queueState_eq (settle true (periodDone d s))
    rw [queued]
    exact settled.withBus (Change.queueState.chain_eq queued.symm)

/-! ### Bus interface -/

theorem effect_offerBegin (s : State) : Effect s (offerBegin s) := by
  unfold offerBegin
  split
  · exact .refl s
  · next x rest idle queue _ => exact .quiet (.bus _) (Change.offer x rest _ idle queue).chain
  · exact .refl s

theorem effect_contentionLost (s : State) : Effect s (contentionLost s) := by
  unfold contentionLost
  split
  · next offered => exact .quiet (.bus _) (Change.dropOffer offered).chain
  · exact .refl s

theorem settle_idle {lim : Bool} {s : State} (idle : s.running = false) : settle lim s = s := by
  simp [settle, idle]

/-- A fault counted outside LISTENING and READY changes the bus interface and clears the completion marker (10 R154). -/
theorem countFault_idle {s : State} (idle : s.running = false) :
    ∃ (b : Bus) (completion : Bool), countFault s =
      { s with
        view := { s.view with blind := s.view.blind, completion := completion, silence := s.view.silence }
        bus := b } := by
  have notReady : s.life ≠ .ready := fun ready => by simp [State.running, ready] at idle
  rcases countFault_cases s with h | ⟨_, _, h⟩
  · exact ⟨_, s.view.completion, h⟩
  · refine ⟨{ s.bus with faults := min (s.bus.faults + 1) 16, lineFault := true }, false, h.trans ?_⟩
    simp only [raiseLineFault, notReady, if_false]

theorem effect_offerFailed (s : State) : Effect s (offerFailed s) := by
  unfold offerFailed
  split
  · next offered =>
    have dropped : Changes .rule s (countFault (dropOffer s)) :=
      (Change.dropOffer offered).chain.trans (changes_countFault _)
    by_cases running : s.running = true
    · exact .of_rules false running dropped
    · have idle : s.running = false := by simpa using running
      have still : (countFault (dropOffer s)).running = false := dropped.fixed.running.trans idle
      rw [settle_idle still]
      refine .quiet ?_ dropped
      obtain ⟨b, completion, h⟩ := countFault_idle (s := dropOffer s) idle
      rw [h]
      exact .faulted b s.view.blind completion s.view.silence idle
  · exact .refl s

theorem changes_markCompletion (s : State) : Changes .rule s (markCompletion s) := by
  unfold markCompletion
  by_cases listening : s.life = .listening
  · rw [decide_eq_true listening, Bool.or_true]
    exact (Change.completion (s.view.completion || s.view.blind)).chain.tail (.probe listening)
  · rw [decide_eq_false listening, Bool.or_false]
    exact (Change.completion (s.view.completion || s.view.blind)).chain

theorem joinLine_idle {s : State} (idle : s.life ≠ .listening) : joinLine s = s := by
  simp [joinLine, idle]

/-- Leaving BLIND, where it is left, changes BLIND and the silence count (01 R18). -/
theorem leaveBlind_eq (s : State) : ∃ (blind : Bool) (silence : Nat),
    leaveBlind s = { s with view := { s.view with blind := blind, silence := silence } } := by
  unfold leaveBlind
  split
  · exact ⟨_, _, rfl⟩
  · exact ⟨s.view.blind, s.view.silence, rfl⟩

theorem effect_offerCompleted (s : State) : Effect s (offerCompleted s) := by
  unfold offerCompleted
  split
  · next offered =>
    have completed : Changes .rule s
        (joinLine (leaveBlind (markCompletion { s with bus := busCompleted s.own s.bus }))) :=
  (((Change.completed offered).chain.trans (changes_markCompletion _)).trans
      (changes_leaveBlind _)).trans (changes_joinLine _)
    by_cases running : s.running = true
    · exact .of_rules false running completed
    · have idle : s.running = false := by simpa using running
      rw [settle_idle (completed.fixed.running.trans idle)]
      refine .quiet ?_ completed
      have notListening : s.life ≠ .listening := fun h => by simp [State.running, h] at idle
      obtain ⟨blind, silence, left⟩ :=
        leaveBlind_eq (markCompletion { s with bus := busCompleted s.own s.bus })
      rw [left, joinLine_idle (by exact notListening)]
      simp only [markCompletion, notListening, decide_false, Bool.or_false]
      exact .faulted _ blind _ silence idle
  · exact .refl s

theorem effect_lineFault (b : FaultOccasion) (s : State) : Effect s (lineFault b s) := by
  unfold lineFault
  split
  · split
    · exact effect_offerFailed s
    · exact effect_foreignNotice _ s
  · exact .refl s

/-- BECOME_READY is an event at a LISTENING station alone (12 R168, log 4). -/
theorem effect_becomeReadyAt (b : ReadyOccasion) (s : State) : Effect s (becomeReadyAt b s) := by
  unfold becomeReadyAt
  cases b
  · dsimp only
    split
    · next joins =>
      simp only [Bool.and_eq_true, decide_eq_true_eq] at joins
      exact effect_noticePeriodExpiry (by simp [State.running, joins.1])
    · exact .refl s
  · dsimp only
    split
    · exact effect_offerCompleted s
    · exact .refl s

/-! ### Control second and drive interval -/

theorem changes_screwSecond {s : State} (role : s.cfg.roles.screw = true) : Changes .rule s (screwSecond s) := by
  have sampled : Changes .rule s { s with screw := { s.screw with sample := s.view.lring } } :=
    (Change.screw _ (by rfl) (by rfl) (by rfl)).chain
  unfold screwSecond
  dsimp only
  split
  · next running _ _ =>
    refine sampled.tail (.screwSpeed _ role running running (by rfl) ?_)
    simp [slewed]
  · exact sampled

theorem changes_bandSecond (s : State) : Changes .rule s (bandSecond s) := by
  have lowered : ∀ b, Changes .rule s { s with screw := { s.screw with pressureBand := b } } := fun b =>
    (Change.screw { s.screw with pressureBand := b } rfl rfl rfl).chain
  unfold bandSecond
  split
  · split
    · exact lowered false
    · split
      · exact lowered false
      · exact (lowered true).trans (changes_onSpoilPart (fun p => ⟨by rfl, by rfl⟩) _)
  · exact lowered false

theorem changes_faceSecond (s : State) : Changes .rule s (faceSecond s) := by
  unfold faceSecond
  split
  · next role => exact (changes_screwSecond role).trans (changes_bandSecond _)
  · exact .refl

/-- Flags of the cars are no part of the mass balance (07 R108, R110). -/
theorem carsInOrder_map {f : Car → Car} (same : ∀ c, (f c).state = c.state ∧ (f c).filled = c.filled
    ∧ (f c).capacity = c.capacity) (cars : List Car) :
    (carsInOrder (cars.map f) ↔ carsInOrder cars) ∧ (cars.map f).map Car.filled = cars.map Car.filled := by
  refine ⟨?_, by simp [(same _).2.1]⟩
  induction cars with
  | nil => rfl
  | cons c cs ih =>
    obtain ⟨state, filled, capacity⟩ := same c
    unfold carsInOrder
    simp only [List.map_cons, state, filled, capacity]
    cases h : c.state
    · simp
    · simp [(same _).1, (same _).2.1, (same _).2.2]
    · simpa using ih

theorem changes_judgeOver (j : Bool) (s : State) : Changes .rule s (judgeOver j s) := by
  refine (Change.train _ fun ⟨length, order, most, balance⟩ => ?_).chain
  split
  · obtain ⟨kept, masses⟩ := carsInOrder_map
      (f := fun c => if c.state = .filling then { c with flagOver := true } else c)
      (fun c => by split <;> simp) s.train.cars
    refine ⟨by simpa [flagFilling] using length, kept.2 order, most, ?_⟩
    show s.train.mass = ((flagFilling s.train.cars).map Car.filled).sum + s.train.overflow
    rw [flagFilling, masses]
    exact balance
  · exact ⟨length, order, most, balance⟩

theorem changes_spoilSecond (s : State) : Changes .rule s (spoilSecond s) := by
  unfold spoilSecond
  split
  · exact (changes_accountSpoil s).trans (changes_judgeOver _ _)
  · exact .refl

theorem changes_groutSecond (s : State) : Changes .rule s (groutSecond s) := by
  unfold groutSecond
  split
  · exact .refl
  · dsimp only
    split
    · split
      · split
        · exact (Change.grout _).chain.trans (changes_onGroutPart _ _)
        · exact (Change.grout _).chain
      · exact (Change.grout _).chain
    · exact (Change.grout _).chain

theorem changes_countSeconds (s : State) : Changes .rule s (countSeconds s) := (Change.record _ (by rfl) (by exact id)).chain

theorem changes_controlWork (s : State) : Changes .rule s (controlWork s) :=
  (((changes_updateRingAdvance s).trans (changes_faceSecond _)).trans (changes_spoilSecond _)).trans
    ((changes_groutSecond _).trans (changes_countSeconds _))

/-- What the rules do at an expiry of the control timer (00 Timers and events). -/
def secondDone (d : Nat) (s : State) : State :=
  controlWork { clockTo d s with clock := { (clockTo d s).clock with controlDue := some (d + 1000) } }

theorem changes_secondDone {d : Nat} {s : State} (due : s.clock.controlDue = some d) :
    Changes .rule s (secondDone d s) :=
  (Change.time (max s.clock.now d) s.clock.noticeDue (some (d + 1000)) s.clock.driveDue rfl (by simp [due])
    rfl).trans (changes_controlWork _)

theorem controlSecond_due {d : Nat} {s : State} (due : s.clock.controlDue = some d) :
    controlSecond s = settle true (secondDone d s) := by
  simp only [controlSecond, due]
  rfl

theorem controlSecond_idle {s : State} (idle : s.clock.controlDue = none) : controlSecond s = s := by
  simp only [controlSecond, idle]

theorem changes_countRevolutions (s : State) : Changes .rule s (countRevolutions s) := by
  unfold countRevolutions
  split
  · exact (Change.drive _ (by simp)).chain
  · exact .refl

theorem changes_endStop (s : State) : Changes .rule s (endStop s) := by
  unfold endStop
  split
  · next stopped =>
    simp only [Bool.and_eq_true, decide_eq_true_eq] at stopped
    exact (Change.drive _ (by simp [stopped.1.1])).chain
  · exact .refl

theorem changes_stopInterval (s : State) : Changes .rule s (stopInterval s) :=
  (Change.drive { s.drive with command := moveToward 0 (stopStep s) s.drive.command } (by simp)).chain.trans
    (changes_endStop _)

theorem changes_rampInterval {s : State} (turns : s.drive.state = .starting ∨ s.drive.state = .running) :
    Changes .rule s (rampInterval s) := by
  unfold rampInterval
  dsimp only
  split
  · next running => exact (Change.drive _ (by simp [running])).chain
  · next notRunning =>
    have starting : s.drive.state = .starting := turns.resolve_right notRunning
    refine (Change.drive _ ?_).chain
    dsimp only
    split <;> simp [starting]

theorem changes_driveWork (s : State) : Changes .rule s (driveWork s) := by
  have same : (countRevolutions s).drive.state = s.drive.state := by unfold countRevolutions; split <;> rfl
  unfold driveWork
  split
  · exact .refl
  · next h => exact (changes_countRevolutions s).trans (changes_rampInterval (.inl (same.trans h)))
  · next h => exact (changes_countRevolutions s).trans (changes_rampInterval (.inr (same.trans h)))
  · exact (changes_countRevolutions s).trans (changes_stopInterval _)
  · exact changes_countRevolutions s
  · exact changes_countRevolutions s

/-- What the rules do at an expiry of the drive-interval timer (05 R83, R86, R91). -/
def intervalDone (d : Nat) (s : State) : State :=
  driveWork { clockTo d s with clock := { (clockTo d s).clock with driveDue := some (d + 100) } }

theorem changes_intervalDone {d : Nat} {s : State} (due : s.clock.driveDue = some d) :
    Changes .rule s (intervalDone d s) :=
  (Change.time (max s.clock.now d) s.clock.noticeDue s.clock.controlDue (some (d + 100)) rfl rfl
    (by simp [due])).trans (changes_driveWork _)

theorem driveInterval_due {d : Nat} {s : State} (due : s.clock.driveDue = some d) :
    driveInterval s = settle false (intervalDone d s) := by
  simp only [driveInterval, due]
  rfl

theorem driveInterval_idle {s : State} (idle : s.clock.driveDue = none) : driveInterval s = s := by
  simp only [driveInterval, idle]

/-! ### Other timers -/

theorem changes_clockTo (t : Nat) (s : State) : Changes .rule s (clockTo t s) :=
  (Change.clock _ (by rfl) (by rfl) (by rfl)).chain

theorem effect_stallTimerExpiry (s : State) : Effect s (stallTimerExpiry s) := by
  unfold stallTimerExpiry
  split
  · exact .refl s
  · split
    · next running =>
      exact .of_rules false running ((changes_clockTo _ s).trans (changes_stallDrive (s := clockTo _ s) running))
    · exact .refl s

theorem effect_beltSilenceExpiry (s : State) : Effect s (beltSilenceExpiry s) := by
  unfold beltSilenceExpiry
  split
  · exact .refl s
  · split
    · next running => exact .of_rules false running ((changes_clockTo _ s).trans (changes_beltSilent _))
    · exact .refl s

theorem effect_potLifeExpiry (s : State) : Effect s (potLifeExpiry s) := by
  unfold potLifeExpiry
  split
  · exact .refl s
  · split
    · next running => exact .of_rules false running ((changes_clockTo _ s).trans (changes_potLifeExpires _))
    · exact .refl s

theorem effect_flushTimerExpiry (s : State) : Effect s (flushTimerExpiry s) := by
  unfold flushTimerExpiry
  split
  · exact .refl s
  · split
    · next running => exact .of_rules false running ((changes_clockTo _ s).trans (changes_endFlush _))
    · exact .refl s

/-! ### Field inputs -/

/-- A reading that a LISTENING or READY station judges, and any other records. -/
theorem effect_input {lim : Bool} {s : State} (x : Inputs) {f : State → State}
    (judged : s.running = true → Changes .rule { s with inputs := x } (f { s with inputs := x })) :
    Effect s (if s.running then settle lim (f { s with inputs := x }) else { s with inputs := x }) := by
  have taken := (Change.inputs (s := s) x).chain
  split
  · next running => exact .of_rules lim running (taken.trans (judged running))
  · next idle => exact .quiet (.inputs x s.bus (by simpa using idle)) taken

theorem changes_countStroke (v : Nat) (s : State) : Changes .rule s (countStroke v s) := by
  unfold countStroke
  split
  · split
    · exact (Change.thrust _ (by rfl)).chain
    · exact .refl
  · exact .refl

theorem effect_strokeReading (r : Reading) (s : State) : Effect s (strokeReading r s) :=
  effect_input _ fun _ => changes_countStroke _ _

theorem changes_judgeForce {v : Nat} {s : State} (running : s.running = true) : Changes .rule s (judgeForce v s) := by
  unfold judgeForce
  split
  · split
    · exact .refl
    · exact changes_tripThrust running
  · split
    · next pressed =>
      simp only [Bool.and_eq_true, decide_eq_true_eq] at pressed
      exact (changes_setMode (by simp [pressed.1]) (by simp) (by simp)).trans (changes_decideRetract _)
    · exact .refl

theorem changes_takeForce {v : Nat} {s : State} (running : s.running = true) : Changes .rule s (takeForce v s) :=
  (Change.record _ (by rfl) (by exact id)).chain.trans (changes_judgeForce (s := recordForce v s) running)

theorem effect_forceReading (r : Reading) (s : State) : Effect s (forceReading r s) :=
  effect_input _ fun running => changes_takeForce running

theorem effect_retractedLimitInput (active : Bool) (s : State) : Effect s (retractedLimitInput active s) := by
  unfold retractedLimitInput
  dsimp only
  split
  · next running =>
    refine .of_rules false running ((Change.inputs { s.inputs with retracted := active }).chain.trans ?_)
    split
    · next retracting =>
      simp only [Bool.and_eq_true, decide_eq_true_eq] at retracting
      exact (Change.mode .clear (by simp) (by simp [retracting.2]) fun _ => .inl (by simp [withdrawn, retracting.2])).chain
    · exact .refl
  · next idle => exact .quiet (.inputs _ s.bus (by simpa using idle)) (Change.inputs _).chain

theorem effect_measuredSpeedReading (r : Reading) (s : State) : Effect s (measuredSpeedReading r s) := by
  have taken := (Change.inputs (s := s) { s.inputs with speed := readingOr 0 600 r }).chain
  unfold measuredSpeedReading
  dsimp only
  split
  · next present =>
    simp only [Bool.and_eq_true] at present
    exact .of_rules true present.1 (taken.trans (changes_endStop _))
  · exact .quiet (.readings _ s.inputs.torque s.inputs.seated s.bus) taken

theorem changes_judgeTorque (v : Nat) (s : State) : Changes .rule s (judgeTorque v s) := by
  unfold judgeTorque
  split
  · exact (Change.drive _ (by simp)).chain
  · exact .refl

theorem effect_torqueReading (r : Reading) (s : State) : Effect s (torqueReading r s) := by
  have taken := (Change.inputs (s := s) { s.inputs with torque := readingOr 2000 2000 r }).chain
  unfold torqueReading
  dsimp only
  split
  · next present =>
    simp only [Bool.and_eq_true] at present
    exact .of_rules false present.1 (taken.trans (changes_judgeTorque _ _))
  · exact .quiet (.readings s.inputs.speed _ s.inputs.seated s.bus) taken

theorem effect_chamberPressureReading (r : Reading) (s : State) : Effect s (chamberPressureReading r s) := by
  refine effect_input (f := fun s' =>
    if (crownSet s).contains s.own then decideRetract (marginWatch s') else marginWatch s') _ fun _ => ?_
  split
  · exact (changes_marginWatch _).trans (changes_decideRetract _)
  · exact changes_marginWatch _

theorem effect_linePressureReading (r : Reading) (s : State) : Effect s (linePressureReading r s) :=
  effect_input _ fun _ => changes_judgeLinePressure _

/-- A belt pulse given to the FILLING car keeps the cars in order and adds its mass (07 R110, R111). -/
theorem fillCars_balance (isOver : Bool) (kg : Nat) {cars : List Car} (order : carsInOrder cars)
    (filling : anyFilling cars = true) :
    carsInOrder (fillCars isOver kg cars) ∧ (fillCars isOver kg cars).length = cars.length
      ∧ ((fillCars isOver kg cars).map Car.filled).sum = (cars.map Car.filled).sum + kg := by
  induction cars with
  | nil => simp [anyFilling] at filling
  | cons c cs ih =>
    unfold carsInOrder at order
    unfold fillCars
    cases state : c.state with
    | waiting => simp [state] at order
    | full =>
      simp only [state] at order
      obtain ⟨kept, length, mass⟩ := ih order (by simpa [anyFilling, state] using filling)
      refine ⟨by simp [carsInOrder, state, kept], by simp [length], ?_⟩
      simp [mass]; omega
    | filling =>
      simp only [state] at order
      obtain ⟨_, later⟩ := order
      simp only [if_true]
      split
      · cases cs with
        | nil => exact ⟨by simp [carsInOrder, startNextCar], by simp [startNextCar], by simp [startNextCar]⟩
        | cons d ds =>
          obtain ⟨waits, empty, room⟩ := later d (by simp)
          refine ⟨?_, by simp [startNextCar, waits], by simp [startNextCar, waits]; omega⟩
          simp only [carsInOrder, startNextCar, waits, if_true]
          exact ⟨by omega, fun e he => later e (by simp [he])⟩
      · next room =>
        refine ⟨?_, by simp, by simp; omega⟩
        simp only [carsInOrder]
        exact ⟨by omega, later⟩

theorem trainBalanced_pulse (kg : Nat) {s : State} (h : TrainBalanced s) :
    TrainBalanced { s with train := trainPulse kg s.train } := by
  obtain ⟨length, order, most, balance⟩ := h
  unfold trainPulse
  split
  · exact ⟨length, order, most, balance⟩
  · split
    · next filling =>
      obtain ⟨kept, cars, mass⟩ := fillCars_balance s.train.reasons.isOver kg order filling
      exact ⟨by simpa [cars] using length, kept, by dsimp only; omega, by dsimp only; omega⟩
    · exact ⟨length, order, by dsimp only; omega, by dsimp only; omega⟩

theorem effect_beltPulse (s : State) : Effect s (beltPulse s) := by
  unfold beltPulse
  split
  · next running =>
    simp only [Bool.and_eq_true] at running
    have belt : ∀ p, (spoilBelt s.cfg.beltScale p).ratio = p.ratio ∧ (spoilBelt s.cfg.beltScale p).vex = p.vex :=
      fun p => by unfold spoilBelt; split <;> exact ⟨rfl, rfl⟩
    refine .of_rules false running.1
      (((Change.train (trainPulse s.cfg.beltScale s.train) (trainBalanced_pulse _)).chain.trans
        (changes_onSpoilPart belt _)).trans ?_)
    let t : State := onSpoilPart (spoilBelt s.cfg.beltScale) { s with train := trainPulse s.cfg.beltScale s.train }
    exact (Change.pace { t.train.reasons with beltSilent := false } t.train.pace).chain.tail
      (.screw _ (by rfl) (by rfl) (by rfl))
  · exact .refl s

theorem trainBalanced_additive (kg : Nat) {s : State} (h : TrainBalanced s) :
    TrainBalanced { s with train := trainAdditive kg s.train } := by
  obtain ⟨length, order, most, balance⟩ := h
  obtain ⟨kept, masses⟩ := carsInOrder_map
    (f := fun c => if c.state = .filling then { c with additive := min (c.additive + kg) 9999999 } else c)
    (fun c => by split <;> simp) s.train.cars
  refine ⟨by simpa [trainAdditive] using length, kept.2 order, most, ?_⟩
  show s.train.mass = ((trainAdditive kg s.train).cars.map Car.filled).sum + s.train.overflow
  rw [trainAdditive, masses]
  exact balance

theorem effect_additivePulse (s : State) : Effect s (additivePulse s) := by
  unfold additivePulse
  split
  · next running =>
    simp only [Bool.and_eq_true] at running
    have additive : ∀ p, (spoilAdditive s.cfg.addScale p).ratio = p.ratio
        ∧ (spoilAdditive s.cfg.addScale p).vex = p.vex :=
      fun p => by unfold spoilAdditive; split <;> exact ⟨rfl, rfl⟩
    exact .of_rules false running.1
      ((Change.train (trainAdditive s.cfg.addScale s.train) (trainBalanced_additive _)).chain.trans
        (changes_onSpoilPart additive _))
  · exact .refl s

theorem effect_strokePulse (s : State) : Effect s (strokePulse s) := by
  unfold strokePulse
  split
  · next running =>
    simp only [Bool.and_eq_true] at running
    exact .of_rules false running.1 (Change.grout _).chain
  · exact .refl s

theorem effect_pieceInStrobe (piece : BitVec 3) (key : Bool) (s : State) : Effect s (pieceInStrobe piece key s) := by
  unfold pieceInStrobe
  split
  · next running =>
    simp only [Bool.and_eq_true] at running
    exact .of_rules false running.1 (Change.erector _).chain
  · exact .refl s

theorem changes_seatPiece (s : State) : Changes .rule s (seatPiece s) := by
  unfold seatPiece
  split
  · exact ((Change.erector _).chain.trans (changes_setSeq .awaitingPress (removeHead s))).trans
      (changes_issueStep (by simp) _ _)
  · exact .refl

theorem effect_seatedInput (level : Bool) (s : State) : Effect s (seatedInput level s) := by
  have taken := (Change.inputs (s := s) { s.inputs with seated := level }).chain
  unfold seatedInput
  dsimp only
  split
  · next rises =>
    simp only [Bool.and_eq_true] at rises
    exact .of_rules false rises.1.1.1 (taken.trans (changes_seatPiece _))
  · exact .quiet (.readings s.inputs.speed s.inputs.torque _ s.bus) taken

end Sys2Proof.Machine
end

section
/-! PROOF. Every step as an outcome, and the two ways a property is kept by every step: each change keeps it, or the
evaluation that ends an event brings it about. -/

namespace Sys2Proof.Machine

open Sys2Proof

/-- What an event can come to (12 R165, R170). -/
inductive Outcome (s : State) : State → Prop
  | effect {t : State} (effect : Effect s t) : Outcome s t
  | reset (cause : OpeningCause) (ring : Nat) (history : List Record)
      (kept : history = [] ∨ (ring = s.records.ring ∧ history = s.records.history)) :
      Outcome s (resetStation cause ring history s)
  | fault (own : Nat) (clamped : Bool) (starting : s.life = .starting) :
      Outcome s { s with life := .configFault, own := own, configClamped := clamped }
  | listening (own : Nat) (c : ConfigValues) (clamped : Bool) (starting : s.life = .starting) (below : own < c.n) :
      Outcome s (enterListening own c clamped s)
  | stray {t : State} (untimely : ¬TimersFollowLife s) (idle : s.running = false) (changes : Changes .rule s t) :
      Outcome s t

theorem Outcome.refl (s : State) : Outcome s s := .effect (.refl s)

theorem outcome_warmReset (s : State) : Outcome s (warmReset s) := .reset .restarted _ _ (.inr ⟨rfl, rfl⟩)

theorem effect_refused (h : CmdHead) (n : Nat) (r : Result) (s : State) : Effect s (answer h n (refuse r s)) :=
  (Effect.refl s).answer h n

theorem outcome_restartCommand (h : CmdHead) (ops : List Byte) (s : State) : Outcome s (restartCommand h ops s) := by
  unfold restartCommand
  split
  · exact .refl s
  · split
    · exact .effect (effect_refused h 30 _ s)
    · split
      · exact .effect (effect_refused h 30 _ s)
      · exact outcome_warmReset s

theorem outcome_runCommand (h : CmdHead) (n : Nat) (ops : List Byte) (s : State) : Outcome s (runCommand h n ops s) := by
  unfold runCommand
  split
  · next found => exact .effect (effect_catalogue found h ops s)
  · split
    · exact outcome_restartCommand h ops s
    · split
      · exact .refl s
      · exact .effect (effect_refused h n _ s)

theorem outcome_receiveNotice (n : RxNotice) (s : State) : Outcome s (receiveNotice n s) := by
  unfold receiveNotice
  split
  · exact .refl s
  · split
    · unfold receiveState
      split
      · exact .effect (effect_stateArrival _ _ s)
      · exact .refl s
    · unfold receiveTrip
      split
      · exact .effect (effect_tripArrival _ _ s)
      · exact .refl s
    · unfold receivePace
      split
      · exact .effect (effect_paceArrival _ _ s)
      · exact .refl s
    · unfold receiveStep
      split
      · exact .effect (effect_stepArrival _ _ _ _ s)
      · exact .refl s
    · unfold receiveCommand
      split
      · exact outcome_runCommand _ _ _ s
      · exact .refl s
    · split
      · exact .effect (effect_foreignNotice false s)
      · exact .refl s

theorem outcome_configurationRead (pins : BitVec 3) (bytes : List (Option Byte)) (s : State) :
    Outcome s (configurationRead pins bytes s) := by
  unfold configurationRead
  split
  · next starting =>
    dsimp only
    split
    · exact .fault pins.toNat s.configClamped starting
    · split
      · next below => exact .listening _ _ _ starting below
      · exact .fault _ _ starting
  · exact .refl s

/-! ### Expiries -/

theorem outcome_noticePeriodExpiry (s : State) : Outcome s (noticePeriodExpiry s) := by
  by_cases running : s.running = true
  · exact .effect (effect_noticePeriodExpiry running)
  · cases due : s.clock.noticeDue with
    | none => rw [noticePeriodExpiry_idle due]; exact .refl s
    | some d =>
      have idle : s.running = false := by simpa using running
      have done := changes_periodDone due
      rw [noticePeriodExpiry_due due, settle_idle (done.fixed.running.trans idle)]
      exact .stray (fun timers => by simp [TimersFollowLife, due, idle] at timers) idle (done.tail .queueState)

theorem outcome_controlSecond (s : State) : Outcome s (controlSecond s) := by
  cases due : s.clock.controlDue with
  | none => rw [controlSecond_idle due]; exact .refl s
  | some d =>
    have done := changes_secondDone due
    rw [controlSecond_due due]
    by_cases running : s.running = true
    · exact .effect (.of_rules true running done)
    · have idle : s.running = false := by simpa using running
      rw [settle_idle (done.fixed.running.trans idle)]
      exact .stray (fun timers => by simp [TimersFollowLife, due, idle] at timers) idle done

theorem outcome_driveInterval (s : State) : Outcome s (driveInterval s) := by
  cases due : s.clock.driveDue with
  | none => rw [driveInterval_idle due]; exact .refl s
  | some d =>
    have done := changes_intervalDone due
    rw [driveInterval_due due]
    by_cases running : s.running = true
    · exact .effect (.of_rules false running done)
    · have idle : s.running = false := by simpa using running
      rw [settle_idle (done.fixed.running.trans idle)]
      exact .stray (fun timers => by simp [TimersFollowLife, due, idle] at timers) idle done

theorem outcome_retryWaitEnd (s : State) : Outcome s (retryWaitEnd s) := by
  unfold retryWaitEnd
  split
  · exact outcome_noticePeriodExpiry s
  · exact .refl s

theorem outcome_silenceCountReachingK (s : State) : Outcome s (silenceCountReachingK s) := by
  unfold silenceCountReachingK
  split
  · exact outcome_noticePeriodExpiry s
  · exact .refl s

/-! ### The events -/

/-- The rows of the catalogue are the commands of their numbers (11 section 11.3). -/
theorem exec_command {i : Instr} {n : Nat} {h : CmdHead} {ops : List Byte} (command : commandOf i = some (n, h, ops))
    (s : State) : exec i s = .next (runCommand h n ops s) := by
  cases i <;> simp only [commandOf, Option.some.injEq, Prod.mk.injEq, reduceCtorEq] at command
  all_goals
    obtain ⟨rfl, rfl, rfl⟩ := command
    rfl

/-- Every event comes to an outcome. -/
theorem exec_outcome {i : Instr} {s t : State} (h : exec i s = .next t) : Outcome s t := by
  cases command : commandOf i with
  | some c =>
    obtain ⟨n, head, ops⟩ := c
    obtain rfl := Host.Outcome.next.inj ((exec_command command s).symm.trans h)
    exact outcome_runCommand head n ops s
  | none =>
  cases i <;> simp only [commandOf, reduceCtorEq] at command <;> obtain rfl := Host.Outcome.next.inj h
  case stateArrival => exact .effect (effect_stateArrival _ _ s)
  case tripArrival => exact .effect (effect_tripArrival _ _ s)
  case paceArrival => exact .effect (effect_paceArrival _ _ s)
  case stepArrival => exact .effect (effect_stepArrival _ _ _ _ s)
  case foreignOwnAddressNotice => exact .effect (effect_foreignNotice _ s)
  case noticeDiscarded => exact outcome_receiveNotice _ s
  case noticePeriodExpiry => exact outcome_noticePeriodExpiry s
  case controlSecond => exact outcome_controlSecond s
  case driveInterval => exact outcome_driveInterval s
  case stallTimerExpiry => exact .effect (effect_stallTimerExpiry s)
  case beltSilenceExpiry => exact .effect (effect_beltSilenceExpiry s)
  case potLifeExpiry => exact .effect (effect_potLifeExpiry s)
  case flushTimerExpiry => exact .effect (effect_flushTimerExpiry s)
  case retryWaitEnd => exact outcome_retryWaitEnd s
  case silenceCountReachingK => exact outcome_silenceCountReachingK s
  case lineFault => exact .effect (effect_lineFault _ s)
  case becomeReady => exact .effect (effect_becomeReadyAt _ s)
  case offerBegin => exact .effect (effect_offerBegin s)
  case contentionLost => exact .effect (effect_contentionLost s)
  case offerFailed => exact .effect (effect_offerFailed s)
  case offerCompleted => exact .effect (effect_offerCompleted s)
  case strokeReading => exact .effect (effect_strokeReading _ s)
  case forceReading => exact .effect (effect_forceReading _ s)
  case retractedLimitInput => exact .effect (effect_retractedLimitInput _ s)
  case measuredSpeedReading => exact .effect (effect_measuredSpeedReading _ s)
  case torqueReading => exact .effect (effect_torqueReading _ s)
  case chamberPressureReading => exact .effect (effect_chamberPressureReading _ s)
  case linePressureReading => exact .effect (effect_linePressureReading _ s)
  case beltPulse => exact .effect (effect_beltPulse s)
  case additivePulse => exact .effect (effect_additivePulse s)
  case strokePulse => exact .effect (effect_strokePulse s)
  case pieceInStrobe => exact .effect (effect_pieceInStrobe _ _ s)
  case seatedInput => exact .effect (effect_seatedInput _ s)
  case powerOnReset => exact .reset .start 0 [] (.inl rfl)
  case pinReset => exact outcome_warmReset s
  case configurationRead => exact outcome_configurationRead _ _ s
  case commandNotInCatalogue => exact outcome_runCommand _ _ _ s

/-! ### Properties kept by every step -/

/-- A property that reads neither the waiting events nor the clock's moment. -/
structure Timeless (P : State → Prop) : Prop where
  pending : ∀ s l, P s → P { s with pending := l }
  now : ∀ s n, P s → P { s with clock := { s.clock with now := n } }

/-- A property is kept by every step once every outcome of an event keeps it. -/
theorem keptByStep_of_outcome {P : State → Prop} (timeless : Timeless P)
    (outcome : ∀ s t, TimersFollowLife s → P s → Outcome s t → P t) : KeptByStep P := by
  intro s t timers holds h
  unfold step at h
  split at h
  · obtain rfl := Host.Outcome.next.inj h
    exact timeless.now s _ holds
  · next c rest _ =>
    exact outcome { s with pending := rest } t timers (timeless.pending s rest holds) (exec_outcome h)

theorem running_listeningWith (own : Nat) (c : ConfigValues) (clamped : Bool) (s : State) :
    (listeningWith own c clamped s).running = true := by
  simp [State.running, listeningWith]

/-- What the resets and the reading of the memory keep. -/
structure StartKeeps (P : State → Prop) : Prop where
  reset : ∀ cause ring history s, history = [] ∨ (ring = s.records.ring ∧ history = s.records.history) → P s →
    P (resetStation cause ring history s)
  fault : ∀ own clamped s, s.life = .starting → P s →
    P { s with life := .configFault, own := own, configClamped := clamped }
  listening : ∀ own c clamped s, s.life = .starting → own < c.n → P s → P (listeningWith own c clamped s)

/-- A property that every change keeps is kept by the first force reading and the evaluation that begin LISTENING. -/
theorem enterListening_keeps {P : State → Prop} (change : ∀ {k s t}, Change s k t → P s → P t) {own : Nat}
    {c : ConfigValues} {clamped : Bool} {s : State} (h : P (listeningWith own c clamped s)) :
    P (enterListening own c clamped s) :=
  (changes_settle false _).keep change
    ((changes_takeForce (running_listeningWith own c clamped s)).keep change h)

/-- A property that every change, every reset and the reading of the memory keep is kept by every step. -/
theorem keptByStep_of_change {P : State → Prop} (timeless : Timeless P) (start : StartKeeps P)
    (change : ∀ {k s t}, Change s k t → P s → P t) : KeptByStep P := by
  refine keptByStep_of_outcome timeless fun s t _ holds outcome => ?_
  cases outcome with
  | effect effect => exact effect.keep change holds
  | reset cause ring history kept => exact start.reset cause ring history s kept holds
  | fault own clamped starting => exact start.fault own clamped s starting holds
  | listening own c clamped starting below =>
    exact enterListening_keeps change (start.listening own c clamped s starting below holds)
  | stray _ _ changes => exact changes.keep change holds

/-- A property that the evaluation of the units brings about, and that everything else keeps, is kept by every step. -/
theorem keptByStep_of_settle {P : State → Prop} (timeless : Timeless P)
    (reset : ∀ cause ring history s, P (resetStation cause ring history s))
    (fault : ∀ own clamped s, s.life = .starting → P s →
      P { s with life := .configFault, own := own, configClamped := clamped })
    (quiet : ∀ {s t}, Quiet s t → P s → P t)
    (settled : ∀ lim e b, e.running = true → P { settle lim e with bus := b }) : KeptByStep P := by
  refine keptByStep_of_outcome timeless fun s t timers holds outcome => ?_
  cases outcome with
  | effect effect =>
    cases effect with
    | quiet q _ => exact quiet q holds
    | settled lim b running own evaluated _ =>
      exact settled lim _ b (evaluated.fixed.running.trans (own.fixed.running.trans running))
  | reset cause ring history _ => exact reset cause ring history s
  | fault own clamped starting => exact fault own clamped s starting holds
  | listening own c clamped _ _ =>
    refine settled false _ (enterListening own c clamped s).bus ?_
    exact (changes_takeForce (running_listeningWith own c clamped s)).fixed.running.trans
      (running_listeningWith own c clamped s)
  | stray untimely => exact absurd timers untimely

end Sys2Proof.Machine
end

section
/-! PROOF. The invariants that every single change keeps: timers and BLIND, plan, group in a build, train, history, peer view
and trips. -/

namespace Sys2Proof.Machine

open Sys2Proof

/-- A change of the screw state changes the screw unit alone. -/
theorem setScrew_eq (x : ScrewState) (s : State) : ∃ u, setScrew x s = { s with screw := u } := by
  unfold setScrew
  split
  · exact ⟨s.screw, rfl⟩
  · exact ⟨_, rfl⟩

/-! ### Timers and BLIND (12 R165, 01 R17) -/

theorem Change.keeps_timers {k : Phase} {s t : State} (change : Change s k t) (h : TimersFollowLife s) :
    TimersFollowLife t := by
  have running := change.fixed.running
  unfold TimersFollowLife at h ⊢
  rw [running]
  cases change
  case clock notice control drive => exact ⟨notice.trans h.1, control.trans h.2.1, drive.trans h.2.2⟩
  case screwState => obtain ⟨u, e⟩ := setScrew_eq (screwChoice s) s; rw [e]; exact h
  case queueState => obtain ⟨b, e⟩ := queueState_eq s; rw [e]; exact h
  all_goals exact h

theorem keptByStep_timers : KeptByStep TimersFollowLife := by
  refine keptByStep_of_change ⟨fun _ _ h => h, fun _ _ h => h⟩ ⟨?_, ?_, ?_⟩ Change.keeps_timers
  · exact fun _ _ _ _ _ _ => ⟨rfl, rfl, rfl⟩
  · intro own clamped s starting h
    have idle : s.running = false := by simp [State.running, starting]
    simpa [TimersFollowLife, State.running, starting] using h
  · exact fun _ _ _ _ _ _ _ => ⟨rfl, rfl, rfl⟩

theorem Change.keeps_blindInReady {k : Phase} {s t : State} (change : Change s k t) (h : BlindInReady s) :
    BlindInReady t := by
  cases change
  case ready => exact ⟨fun l => absurd rfl l, h.2⟩
  case blind ready => exact ⟨fun l => absurd ready l, h.2⟩
  case unblind => exact ⟨fun _ => ⟨rfl, rfl⟩, Nat.zero_le _⟩
  case silence ready bound => exact ⟨fun l => absurd ready l, bound⟩
  case screwState => obtain ⟨u, e⟩ := setScrew_eq (screwChoice s) s; rw [e]; exact h
  case queueState => obtain ⟨b, e⟩ := queueState_eq s; rw [e]; exact h
  all_goals exact h

theorem keptByStep_blindInReady : KeptByStep BlindInReady := by
  refine keptByStep_of_change ⟨fun _ _ h => h, fun _ _ h => h⟩ ⟨?_, ?_, ?_⟩ Change.keeps_blindInReady
  · exact fun _ _ _ _ _ _ => ⟨fun _ => ⟨rfl, rfl⟩, Nat.zero_le _⟩
  · exact fun _ _ s starting h => ⟨fun _ => h.1 (by simp [starting]), h.2⟩
  · intro own c clamped s starting _ h
    obtain ⟨blind, silence⟩ := h.1 (by simp [starting])
    exact ⟨fun _ => ⟨blind, silence⟩, by simp [listeningWith, silence]⟩

/-- Settles O48, since every change keeps timers and BLIND with the lifecycle. -/
theorem timersAndBlindFollowLife : Obligations.TimersAndBlindFollowLife :=
  ⟨fun s t timers h => keptByStep_timers s t timers timers h, keptByStep_blindInReady⟩

/-! ### Train (07 R108, R110) -/

theorem Change.keeps_trainBalanced {k : Phase} {s t : State} (change : Change s k t) (h : TrainBalanced s) :
    TrainBalanced t := by
  cases change
  case train kept => exact kept h
  case screwState => obtain ⟨u, e⟩ := setScrew_eq (screwChoice s) s; rw [e]; exact h
  case queueState => obtain ⟨b, e⟩ := queueState_eq s; rw [e]; exact h
  all_goals exact h

/-- Settles O57, since every change of the train keeps its cars in order and its mass balanced. -/
theorem trainMassBalanced : Obligations.TrainMassBalanced :=
  keptByStep_of_change ⟨fun _ _ h => h, fun _ _ h => h⟩
    ⟨fun _ _ _ _ _ _ => ⟨by simp [resetStation, State.reset, Train.reset], trivial, Nat.zero_le _, rfl⟩,
      fun _ _ _ _ h => h, fun _ _ _ _ _ _ h => h⟩ Change.keeps_trainBalanced

/-! ### History and ratio (09 R146, R141) -/

/-- A record stored as the newest keeps the history in order below a higher ring (09 R144, R146). -/
theorem historyInOrder_store {r : Nat} (c : OpeningCause) {s : State}
    (higher : s.records.ring < r ∨ s.records.ring = 65535) (h : HistoryInOrder s) :
    HistoryInOrder (storeAndOpen r c s) := by
  obtain ⟨length, current, order⟩ := h
  unfold HistoryInOrder storeAndOpen
  dsimp only
  split
  · exact ⟨by simp, rfl, by simp⟩
  · next below =>
    have above : s.records.ring < r := higher.resolve_right below
    have appended : (s.records.history.map Record.ring ++ [s.records.ring] ++ [r]).Pairwise (· < ·) := by
      refine List.pairwise_append.2 ⟨order, by simp, fun a ha b hb => ?_⟩
      obtain rfl : b = r := by simpa using hb
      rcases List.mem_append.1 ha with old | last
      · exact ((List.pairwise_append.1 order).2.2 a old _ (by simp)).trans above
      · obtain rfl : a = s.records.ring := by simpa using last
        exact above
    unfold appendHistory
    split
    · refine ⟨by simp; omega, rfl, ?_⟩
      simpa [current] using appended
    · refine ⟨by simp; omega, rfl, ?_⟩
      refine appended.sublist ?_
      rw [List.map_append, List.map_cons, List.map_nil, current, List.map_drop]
      exact ((List.drop_sublist 1 _).append_right _).append_right _

theorem Change.keeps_historyInOrder {k : Phase} {s t : State} (change : Change s k t) (h : HistoryInOrder s) :
    HistoryInOrder t := by
  cases change
  case record r ring _ => exact ⟨h.1, ring.trans h.2.1, h.2.2⟩
  case store r c higher => exact historyInOrder_store c higher h
  case openRecord r c l higher =>
    rcases higher with rfl | ⟨rfl, above⟩
    · exact ⟨by simp, rfl, by simp⟩
    · refine ⟨h.1, rfl, List.pairwise_append.2 ⟨(List.pairwise_append.1 h.2.2).1, by simp, fun a ha b hb => ?_⟩⟩
      obtain rfl : b = r := by simpa using hb
      exact ((List.pairwise_append.1 h.2.2).2.2 a ha _ (by simp)).trans above
  case clearHistory => exact ⟨by simp, h.2.1, by simp⟩
  case screwState => obtain ⟨u, e⟩ := setScrew_eq (screwChoice s) s; rw [e]; exact h
  case queueState => obtain ⟨b, e⟩ := queueState_eq s; rw [e]; exact h
  all_goals exact h

theorem ratioBounded_fresh {s : State} {roles : Roles} {ring : Nat} {cause : OpeningCause}
    (h : s.records.current = Record.fresh roles ring cause) : RatioBounded s := by
  intro p r spoil ratio
  rw [h] at spoil
  simp only [Record.fresh] at spoil
  split at spoil
  · obtain rfl := Option.some.inj spoil
    simp [SpoilPart.fresh] at ratio
  · simp at spoil

theorem Change.keeps_ratioBounded {k : Phase} {s t : State} (change : Change s k t) (h : RatioBounded s) :
    RatioBounded t := by
  cases change
  case record kept => exact kept h
  case store r c _ => exact ratioBounded_fresh (s := storeAndOpen r c s) rfl
  case openRecord r c _ _ => exact ratioBounded_fresh (roles := s.cfg.roles) (ring := r) (cause := c) rfl
  case screwState => obtain ⟨u, e⟩ := setScrew_eq (screwChoice s) s; rw [e]; exact h
  case queueState => obtain ⟨b, e⟩ := queueState_eq s; rw [e]; exact h
  all_goals exact h

/-- Settles O58, since a record is stored only below a higher ring, and a ratio is only written by an account. -/
theorem historyAndRatioInBounds : Obligations.HistoryAndRatioInBounds := by
  refine ⟨keptByStep_of_change ⟨fun _ _ h => h, fun _ _ h => h⟩ ⟨?_, fun _ _ _ _ h => h, ?_⟩
    Change.keeps_historyInOrder, keptByStep_of_change ⟨fun _ _ h => h, fun _ _ h => h⟩
    ⟨?_, fun _ _ _ _ h => h, ?_⟩ Change.keeps_ratioBounded⟩
  · rintro cause ring history s (rfl | ⟨rfl, rfl⟩) h
    · exact ⟨by simp [resetStation], rfl, by simp [resetStation]⟩
    · exact ⟨h.1, rfl, h.2.2⟩
  · exact fun _ _ _ _ _ _ h => ⟨h.1, rfl, h.2.2⟩
  · exact fun cause ring history s _ _ => ratioBounded_fresh (roles := Roles.none) (ring := ring) (cause := cause) rfl
  · exact fun own c clamped s _ _ _ =>
      ratioBounded_fresh (s := listeningWith own c clamped s) (roles := c.roles) (ring := s.records.ring)
        (cause := s.records.current.cause) rfl

/-! ### Plan (03 R39, R40) -/

theorem planInOrder_setEntryState {e : EntryState} (unset : e ≠ .set) {s : State} (h : PlanInOrder s) :
    PlanInOrder (setEntryState e s) := by
  obtain ⟨length, ready, held, inside, ringOpen⟩ := h
  refine ⟨by simpa [setEntryState] using length, fun some_ => ready fun none => some_ (by simp [setEntryState, none]),
    fun j x at_j => ?_, by simpa [setEntryState] using inside, ringOpen⟩
  simp only [setEntryState, List.getElem?_modify, Option.map_eq_map, Option.map_eq_some_iff,
    List.length_modify] at at_j ⊢
  obtain ⟨y, at_y, rfl⟩ := at_j
  obtain ⟨set, key⟩ := held j y at_y
  by_cases here : s.build.index = j
  · subst here
    exact ⟨by simp [unset], by simpa using key⟩
  · simpa [here] using ⟨set, key⟩

theorem planInOrder_moveIndex {i : Nat} {s : State} (inPlan : i < s.build.entries.length) (forward : s.build.index ≤ i)
    (inBuild : s.build.state ≠ .ringOpen) (h : PlanInOrder s) : PlanInOrder (moveIndex i s) := by
  obtain ⟨length, ready, held, _, _⟩ := h
  have same : (moveIndex i s).build.entries.length = s.build.entries.length := by
    simp [moveIndex]; omega
  refine ⟨same.trans_le length, fun _ => ready (List.ne_nil_of_length_pos (by omega)), fun j x at_j => ?_,
    .inl (by rw [same]; exact inPlan), fun open_ => absurd open_ inBuild⟩
  rw [same]
  simp only [moveIndex] at at_j ⊢
  by_cases below : j < i
  · rw [List.getElem?_append_left (by simp; omega), List.getElem?_map, Option.map_eq_some_iff] at at_j
    obtain ⟨y, at_y, rfl⟩ := at_j
    rw [List.getElem?_take_of_lt below] at at_y
    exact ⟨by simp [below], (held j y at_y).2⟩
  · rw [List.getElem?_append_right (by simp; omega)] at at_j
    have at_x : s.build.entries[j]? = some x := by
      rw [← at_j, List.getElem?_drop]; congr 1; simp; omega
    obtain ⟨set, key⟩ := held j x at_x
    exact ⟨by rw [set]; omega, key⟩

theorem Change.keeps_planInOrder {k : Phase} {s t : State} (change : Change s k t) (h : PlanInOrder s) : PlanInOrder t := by
  cases change
  case ready => exact ⟨h.1, fun _ => rfl, h.2.2⟩
  case abandon b cleared =>
    obtain ⟨_, entries, index⟩ := cleared
    exact ⟨by simp [entries], fun some_ => absurd entries some_, fun j e at_j => by simp [entries] at at_j,
      .inr ⟨index, entries⟩, fun _ => index⟩
  case openUnits => exact ⟨by simp, fun some_ => absurd rfl some_, fun j e at_j => by simp at at_j, .inr ⟨rfl, rfl⟩,
      fun _ => rfl⟩
  case suspend building _ =>
    obtain ⟨length, ready, held, inside, _⟩ := h
    exact ⟨length, ready, held, inside, fun open_ => by simp at open_⟩
  case resume =>
    obtain ⟨length, ready, held, inside, _⟩ := h
    exact ⟨length, ready, held, inside, fun open_ => by simp at open_⟩
  case begin open_ ready _ =>
    obtain ⟨length, ready, held, inside, ringOpen⟩ := h
    refine planInOrder_setEntryState (by simp) ⟨length, ready, ?_, ?_, fun _ => rfl⟩
    · rw [ringOpen open_] at held; exact held
    · rw [ringOpen open_] at inside; exact inside
  case entry unset _ => exact planInOrder_setEntryState unset h
  case index inPlan forward inBuild _ => exact planInOrder_moveIndex (inPlan h) forward inBuild h
  case plan kept => exact kept h
  case screwState => obtain ⟨u, e⟩ := setScrew_eq (screwChoice s) s; rw [e]; exact h
  case queueState => obtain ⟨b, e⟩ := queueState_eq s; rw [e]; exact h
  all_goals exact h

/-- A plan is held at a READY station alone, so none is held in STARTING. -/
theorem PlanInOrder.none_held {s : State} (h : PlanInOrder s) (unready : s.life ≠ .ready) : s.build.entries = [] := by
  by_contra some_
  exact unready (h.2.1 some_)

/-- Settles O59, since every change of the plan keeps its order about the progress index. -/
theorem planOrderKept : Obligations.PlanOrderKept := by
  refine keptByStep_of_change ⟨fun _ _ h => h, fun _ _ h => h⟩ ⟨?_, ?_, ?_⟩ Change.keeps_planInOrder
  · exact fun _ _ _ _ _ _ => ⟨Nat.zero_le _, fun some_ => absurd rfl some_, fun j e at_j => by
      simp [resetStation, State.reset, Build.reset] at at_j, .inr ⟨rfl, rfl⟩, fun _ => rfl⟩
  · exact fun _ _ s starting h => ⟨h.1, fun some_ => absurd (h.none_held (by simp [starting])) some_, h.2.2⟩
  · exact fun _ _ _ s starting _ h => ⟨h.1, fun some_ => absurd (h.none_held (by simp [starting])) some_, h.2.2⟩

/-! ### Withdrawn group (03 R52) -/

theorem currentEntryState_setEntryState {e : EntryState} {s : State} (covered : ownCovered s = true) :
    currentEntryState (setEntryState e s) = some e := by
  unfold ownCovered at covered
  unfold currentEntryState
  split at covered
  · next x at_index =>
    unfold planAt at at_index ⊢
    simp [setEntryState, at_index]
  · simp at covered

theorem Change.keeps_withdrawnOnlyCovered {k : Phase} {s t : State} (change : Change s k t) (h : WithdrawnOnlyCovered s) :
    WithdrawnOnlyCovered t := by
  cases change
  case ready => exact ⟨fun _ => rfl, h.2⟩
  case mode m _ _ covered =>
    refine ⟨h.1, fun out => ?_⟩
    rw [withdrawn, Bool.or_eq_true, decide_eq_true_eq, decide_eq_true_eq] at out
    rcases covered out with before | ⟨building, own, pending⟩
    · exact h.2 before
    · exact ⟨by simp [building], own, .inr ⟨pending, building⟩⟩
  case tripGroup => exact ⟨h.1, fun out => by simp [withdrawn] at out⟩
  case rearmGroup => exact ⟨h.1, fun out => by simp [withdrawn] at out⟩
  case thrust x same =>
    refine ⟨h.1, fun out => h.2 ?_⟩
    simpa [withdrawn, same] using out
  case openUnits pressed =>
    refine ⟨fun building => absurd rfl building, fun out => ?_⟩
    obtain ⟨building, _⟩ := h.2 out
    rcases pressed with pressed | unready | ringOpen
    · exact absurd (show withdrawn s = true from out) (by simp [pressed])
    · exact absurd (h.1 building) unready
    · exact absurd ringOpen building
  case abandon pressed b cleared =>
    exact ⟨fun building => absurd cleared.1 building, fun out => absurd (show withdrawn s = true from out) (by
      simp [pressed])⟩
  case suspend building pressed =>
    refine ⟨fun _ => h.1 (by simp [building]), fun out => ?_⟩
    obtain ⟨_, own, stands⟩ := h.2 out
    refine ⟨by simp, own, .inl ?_⟩
    rcases pressed with pressed | unpending
    · exact absurd (show withdrawn s = true from out) (by simp [pressed])
    · exact stands.resolve_right fun pending => unpending pending.1
  case resume suspended pending =>
    exact ⟨fun _ => h.1 (by simp [suspended]), fun out => ⟨by simp, (h.2 out).2.1, .inr ⟨pending, rfl⟩⟩⟩
  case begin ringOpen ready _ =>
    exact ⟨fun _ => ready, fun out => absurd ringOpen (h.2 out).1⟩
  case entry e _ covered =>
    refine ⟨h.1, fun out => ?_⟩
    obtain ⟨building, own, _⟩ := h.2 out
    refine ⟨building, (ownCovered_setEntryState e s).trans own, ?_⟩
    rw [currentEntryState_setEntryState own, Option.some.injEq, Option.some.injEq]
    exact covered out own
  case index pressed => exact ⟨h.1, fun out => absurd (show withdrawn s = true from out) (by simp [pressed])⟩
  case plan b free state _ =>
    refine ⟨fun building => h.1 (by simpa [state] using building), fun out => ?_⟩
    obtain ⟨building, _, stands⟩ := h.2 out
    rcases free with ringOpen | ⟨suspended, free⟩
    · exact absurd ringOpen building
    · rcases stands with claimed | ⟨_, goesOn⟩
      · exact absurd claimed free
      · simp [suspended] at goesOn
  case screwState => obtain ⟨u, e⟩ := setScrew_eq (screwChoice s) s; rw [e]; exact h
  case queueState => obtain ⟨b, e⟩ := queueState_eq s; rw [e]; exact h
  all_goals exact h

/-- No build goes on in STARTING, and so no group is withdrawn there. -/
theorem WithdrawnOnlyCovered.at_rest {s : State} (h : WithdrawnOnlyCovered s) (unready : s.life ≠ .ready) :
    s.build.state = .ringOpen ∧ withdrawn s = false := by
  have ringOpen : s.build.state = .ringOpen := by
    by_contra building
    exact unready (h.1 building)
  exact ⟨ringOpen, by
    by_contra out
    exact (h.2 (by simpa using out)).1 ringOpen⟩

/-- Settles O50, since a group is withdrawn only where the entry allows it, and a change of the entry presses it first. -/
theorem withdrawnOnlyWhileCovered : Obligations.WithdrawnOnlyWhileCovered := by
  refine keptByStep_of_change ⟨fun _ _ h => h, fun _ _ h => h⟩ ⟨?_, ?_, ?_⟩ Change.keeps_withdrawnOnlyCovered
  · exact fun _ _ _ _ _ _ => ⟨fun building => absurd rfl building, fun out => by
      simp [withdrawn, resetStation, State.reset, Thrust.reset] at out⟩
  · intro own clamped s starting h
    obtain ⟨ringOpen, pressed⟩ := h.at_rest (by simp [starting])
    exact ⟨fun building => absurd ringOpen building, fun out => absurd (show withdrawn s = true from out) (by
      simp [pressed])⟩
  · intro own c clamped s starting _ h
    obtain ⟨ringOpen, pressed⟩ := h.at_rest (by simp [starting])
    exact ⟨fun building => absurd ringOpen building, fun out => absurd (show withdrawn s = true from out) (by
      simp [pressed])⟩

/-! ### Peer view and own trips (01 R2, R4, R15, R16) -/

theorem Change.keeps_peersInOrder {k : Phase} {s t : State} (change : Change s k t) (h : PeersInOrder s) :
    PeersInOrder t := by
  cases change
  case ready listening _ _ =>
    refine ⟨h.1, fun a e held at_a is => ?_⟩
    obtain ⟨_, rest⟩ := h.2 a e held at_a is
    exact ⟨rfl, rest⟩
  case peers kept => exact kept h
  case screwState => obtain ⟨u, e⟩ := setScrew_eq (screwChoice s) s; rw [e]; exact h
  case queueState => obtain ⟨b, e⟩ := queueState_eq s; rw [e]; exact h
  all_goals exact h

theorem mem_withPair_self (p : TripPair) (l : List TripPair) : p ∈ withPair p l := by
  unfold withPair
  split
  · next h => simpa using h
  · simp

theorem Change.keeps_ownTripsKnown {k : Phase} {s t : State} (change : Change s k t) (h : OwnTripsKnown s) :
    OwnTripsKnown t := by
  obtain ⟨thrust, stall, idle⟩ := h
  cases change
  case ready => exact ⟨thrust, stall, fun r => by simp [State.running] at r⟩
  case trips l running own =>
    exact ⟨(own .thrust (by simp)).trans thrust, (own .stall (by simp)).trans stall,
      fun r => absurd (show s.running = false from r) (by simp [running])⟩
  case thrust x same => exact ⟨by rw [same]; exact thrust, stall, idle⟩
  case mode m armed untripped _ => exact ⟨by simpa [armed, untripped] using thrust, stall, idle⟩
  case tripGroup running =>
    refine ⟨iff_of_true (mem_withPair_self _ _) rfl, ?_,
      fun r => absurd (show s.running = false from r) (by simp [running])⟩
    exact (own_mem_withPair (by simp) s.view.trips).trans stall
  case rearmGroup running =>
    exact ⟨by simp [withoutPair], by simpa [withoutPair] using stall,
      fun r => absurd (show s.running = false from r) (by simp [running])⟩
  case drive d same => exact ⟨thrust, stall.trans same.symm, idle⟩
  case stop turns =>
    refine ⟨thrust, stall.trans ?_, idle⟩
    rcases turns with starting | runs
    · simp [starting]
    · simp [runs]
  case stall d stalled running =>
    refine ⟨(own_mem_withPair (by simp) s.view.trips).trans thrust, iff_of_true (mem_withPair_self _ _) stalled,
      fun r => absurd (show s.running = false from r) (by simp [running])⟩
  case rearmDrive d armed running =>
    exact ⟨by simpa [withoutPair] using thrust, by simp [withoutPair, armed],
      fun r => absurd (show s.running = false from r) (by simp [running])⟩
  case screwState => obtain ⟨u, e⟩ := setScrew_eq (screwChoice s) s; rw [e]; exact ⟨thrust, stall, idle⟩
  case queueState => obtain ⟨b, e⟩ := queueState_eq s; rw [e]; exact ⟨thrust, stall, idle⟩
  all_goals exact ⟨thrust, stall, idle⟩

/-- Settles O60, since every change of the peer view, of the trip memory, of the group mode and of the drive keeps them
true of each other. -/
theorem peerViewInOrder : Obligations.PeerViewInOrder := by
  refine ⟨keptByStep_of_change ⟨fun _ _ h => h, fun _ _ h => h⟩ ⟨?_, ?_, ?_⟩ Change.keeps_peersInOrder,
    keptByStep_of_change ⟨fun _ _ h => h, fun _ _ h => h⟩ ⟨?_, ?_, ?_⟩ Change.keeps_ownTripsKnown⟩
  · intro _ _ _ _ _ _
    refine ⟨rfl, fun a e held at_a is => ?_⟩
    have absent : e = PeerEntry.absent := by
      have := List.mem_of_getElem? at_a
      simpa [resetStation, State.reset, View.reset] using this
    simp [absent, PeerEntry.absent] at is
  · intro own clamped s starting h
    exact ⟨h.1, fun a e held at_a is => absurd (h.2 a e held at_a is).1 (by simp [State.running, starting])⟩
  · intro own c clamped s starting _ h
    exact ⟨h.1, fun a e held at_a is => absurd (h.2 a e held at_a is).1 (by simp [State.running, starting])⟩
  · exact fun _ _ _ _ _ _ => ⟨by simp [resetStation, State.reset, View.reset, Thrust.reset],
      by simp [resetStation, State.reset, View.reset, Drive.reset], fun _ => rfl⟩
  · intro own clamped s starting h
    have none : s.view.trips = [] := h.2.2 (by simp [State.running, starting])
    simpa [OwnTripsKnown, none] using h
  · intro own c clamped s starting _ h
    have none : s.view.trips = [] := h.2.2 (by simp [State.running, starting])
    have untripped : s.thrust.mode ≠ .tripped := by simpa [none] using h.1
    refine ⟨by simp [listeningWith, none, untripped], ?_, fun _ => none⟩
    simp only [listeningWith, none, List.not_mem_nil, false_iff]
    split <;> simp

end Sys2Proof.Machine
end

section
/-! PROOF. The transmit queue keeps its bound, its single STATE, the order of class among those that wait, and the notice on
offer first (10 R158). -/

namespace Sys2Proof.Machine

open Sys2Proof

/-! ### What a queue in order keeps -/

/-- The STATE notices of a queue. -/
def states (q : List QueueItem) : List QueueItem := q.filter (fun x => x.notice = .state)

/-- The notice on offer, if any, stands first (10 R158). -/
def offerFirst (q : List QueueItem) : Prop := ∀ x ∈ q.tail, x.offering = false

/-- The order of the transmit queue, with `b` telling whether an offer is in progress (10 R158). -/
structure QueueOrder (q : List QueueItem) (b : Bool) : Prop where
  bound : q.length ≤ 6
  single : (states q).length ≤ 1
  order : classesInOrder (waiting q)
  offered : q.any QueueItem.offering = b
  first : offerFirst q

theorem queueInOrder_iff (s : State) : QueueInOrder s ↔ QueueOrder s.bus.queue s.bus.offer.isSome := by
  have tail : s.bus.queue.tail.all (fun x => !x.offering) = true ↔ offerFirst s.bus.queue := by
    simp [offerFirst]
  unfold QueueInOrder
  rw [tail]
  exact ⟨fun ⟨a, b, c, d, e⟩ => ⟨a, b, c, d, e⟩, fun ⟨a, b, c, d, e⟩ => ⟨a, b, c, d, e⟩⟩

theorem length_states_cons (x : QueueItem) (q : List QueueItem) :
    (states (x :: q)).length = (states q).length + (if x.notice = .state then 1 else 0) := by
  unfold states
  by_cases h : x.notice = .state <;> simp [h]

@[simp] theorem length_states_insertNotice (n : TxNotice) (q : List QueueItem) :
    (states (insertNotice n q)).length = (states q).length + (if n = .state then 1 else 0) := by
  unfold states
  induction q with
  | nil => by_cases h : n = .state <;> simp [insertNotice, h]
  | cons x xs ih =>
    unfold insertNotice
    split
    · simp only [List.filter_cons]
      split
      · rw [List.length_cons, List.length_cons, ih]; omega
      · exact ih
    · by_cases h : n = .state <;> simp [h]

@[simp] theorem any_offering_insertNotice (n : TxNotice) (q : List QueueItem) :
    (insertNotice n q).any QueueItem.offering = q.any QueueItem.offering := by
  induction q with
  | nil => rfl
  | cons x xs ih =>
    unfold insertNotice
    split
    · simp [ih]
    · simp

theorem offerFirst_insertNotice (n : TxNotice) {q : List QueueItem} (h : offerFirst q) :
    offerFirst (insertNotice n q) := by
  cases q with
  | nil => simp [insertNotice, offerFirst]
  | cons x xs =>
    unfold insertNotice
    split
    · intro y hy
      rcases mem_insertNotice.1 hy with rfl | old
      · rfl
      · exact h y old
    · next waits =>
      intro y hy
      rcases List.mem_cons.1 hy with rfl | old
      · simp at waits; exact waits.1
      · exact h y old

theorem offerFirst_sublist {q r : List QueueItem} (sub : r.Sublist q) (h : offerFirst q) : offerFirst r := by
  cases sub with
  | slnil => exact h
  | cons x sub => exact fun y hy => h y (sub.subset (List.mem_of_mem_tail hy))
  | cons_cons x sub => exact fun y hy => h y (sub.subset hy)

/-- Erasing a notice that waits leaves an offer in progress as it is. -/
theorem any_offering_eraseP {p : QueueItem → Bool} (waits : ∀ x, p x = true → x.offering = false)
    (q : List QueueItem) : (q.eraseP p).any QueueItem.offering = q.any QueueItem.offering := by
  induction q with
  | nil => rfl
  | cons x xs ih =>
    by_cases erased : p x = true
    · simp [erased, waits x erased]
    · rw [List.eraseP_cons_of_neg erased, List.any_cons, List.any_cons, ih]

theorem any_offering_dropNewest {p : QueueItem → Bool} (waits : ∀ x, p x = true → x.offering = false)
    (q : List QueueItem) : (dropNewest p q).any QueueItem.offering = q.any QueueItem.offering := by
  rw [dropNewest, List.any_reverse, any_offering_eraseP waits, List.any_reverse]

theorem any_offering_queueAfter (n : TxNotice) (q : List QueueItem) :
    (queueAfter n q).any QueueItem.offering = q.any QueueItem.offering := by
  have state : ∀ x, waitingState x = true → x.offering = false := by simp [waitingState]
  have classOne : ∀ x, waitingClassOne x = true → x.offering = false := by simp [waitingClassOne]
  unfold queueAfter
  split
  · simp
  · split
    · rw [any_offering_insertNotice, any_offering_eraseP state]
    · split
      · rw [any_offering_insertNotice, any_offering_dropNewest classOne]
      · rfl

/-- A TRIP, PACE, STEP or REPLY that joins the queue keeps its order (10 R158, R159). -/
theorem QueueOrder.enqueue {n : TxNotice} (contents : n ≠ .state) {q : List QueueItem} {b : Bool}
    (h : QueueOrder q b) : QueueOrder (queueAfter n q) b := by
  refine ⟨queueAfter_length_le n h.bound, ?_, queueAfter_inOrder n h.order,
    (any_offering_queueAfter n q).trans h.offered, ?_⟩
  · rcases queueAfter_cases n q with ⟨r, sub, e⟩ | ⟨_, e⟩
    · rw [e, length_states_insertNotice, if_neg contents]
      exact (sub.filter _).length_le.trans h.single
    · rw [e]; exact h.single
  · rcases queueAfter_cases n q with ⟨r, sub, e⟩ | ⟨_, e⟩
    · rw [e]; exact offerFirst_insertNotice n (offerFirst_sublist sub h.first)
    · rw [e]; exact h.first

/-- A STATE that joins a queue without one keeps its order (10 R158). -/
theorem QueueOrder.insertState {q : List QueueItem} {b : Bool} (h : QueueOrder q b) (room : q.length < 6)
    (none : states q = []) : QueueOrder (insertNotice .state q) b :=
  ⟨by rw [length_insertNotice]; omega, by simp [none], insertNotice_inOrder _ h.order,
    (any_offering_insertNotice _ q).trans h.offered, offerFirst_insertNotice _ h.first⟩

/-! ### Offers -/

theorem waiting_of_none_offered {q : List QueueItem} (h : ∀ x ∈ q, x.offering = false) : waiting q = q :=
  List.filter_eq_self.2 fun x hx => by simp [h x hx]

/-- The head notice offered (10 R151, R158). -/
theorem QueueOrder.offer {x : QueueItem} {rest : List QueueItem} (h : QueueOrder (x :: rest) false) :
    QueueOrder ({ x with offering := true } :: rest) true := by
  refine ⟨h.bound, by simpa only [length_states_cons] using h.single, ?_, by simp, h.first⟩
  exact h.order.sublist ((List.sublist_cons_self _ _).filter _)

/-- A notice whose offer has not completed takes its place among those that wait by its class (10 R158, log 33). -/
theorem waitingAgain_eq (x : QueueItem) (rest : List QueueItem) :
    waitingAgain x rest =
      List.orderedInsert (fun a b => noticeClass a.notice ≤ noticeClass b.notice) { x with offering := false } rest := by
  rw [List.orderedInsert_eq_take_drop]
  simp [waitingAgain]

/-- The notice on offer, where there is one, is the head, and none of the others is on offer. -/
theorem QueueOrder.head {q : List QueueItem} (h : QueueOrder q true) :
    ∃ x rest, q = x :: rest ∧ x.offering = true ∧ ∀ y ∈ rest, y.offering = false := by
  obtain ⟨y, mem, on⟩ := List.any_eq_true.1 h.offered
  cases q with
  | nil => simp at mem
  | cons x rest =>
    refine ⟨x, rest, rfl, ?_, h.first⟩
    rcases List.mem_cons.1 mem with rfl | later
    · exact on
    · have off := h.first y later
      simp [on] at off

theorem QueueOrder.endOffer {q : List QueueItem} (h : QueueOrder q true) : QueueOrder (endOffer q) false := by
  obtain ⟨x, rest, rfl, on, off⟩ := h.head
  have perm : (waitingAgain x rest).Perm ({ x with offering := false } :: rest) := by
    rw [waitingAgain_eq]; exact List.perm_orderedInsert _ _ _
  have none : ∀ y ∈ waitingAgain x rest, y.offering = false := by
    intro y mem
    rcases List.mem_cons.1 (perm.subset mem) with rfl | later
    · rfl
    · exact off y later
  rw [endOffer_onOffer on]
  refine ⟨by rw [perm.length_eq]; exact h.bound, ?_, ?_, ?_, fun y mem => none y (List.mem_of_mem_tail mem)⟩
  · rw [show (states (waitingAgain x rest)).length = _ from (perm.filter _).length_eq]
    exact (length_states_cons _ rest).trans_le ((length_states_cons x rest).symm.trans_le h.single)
  · rw [classesInOrder, waiting_of_none_offered none, waitingAgain_eq]
    have order := h.order
    rw [classesInOrder, waiting, List.filter_cons_of_neg (by simp [on]), ← waiting,
      waiting_of_none_offered off] at order
    exact order.orderedInsert _ _
  · simpa using none

/-- A completed notice leaves the queue; the only STATE, with the renewal mark set, joins it again (10 R158). -/
theorem QueueOrder.completed {own : Nat} {b : Bus} (h : QueueOrder b.queue true) :
    QueueOrder (busCompleted own b).queue false := by
  obtain ⟨x, rest, e, on, off⟩ := h.head
  have left : b.queue.eraseP QueueItem.offering = rest := by rw [e]; simp [on]
  have order : QueueOrder rest false := by
    refine ⟨?_, ?_, ?_, by simpa using off, fun y mem => off y (List.mem_of_mem_tail mem)⟩
    · have := h.bound; simp [e] at this; omega
    · exact ((List.sublist_cons_self x rest).filter _).length_le.trans (e ▸ h.single)
    · exact (e ▸ h.order).sublist ((List.sublist_cons_self _ _).filter _)
  simp only [busCompleted, left]
  split
  · next again =>
    simp only [offeredNotice, e, Bool.and_eq_true, decide_eq_true_eq] at again
    have state : x.notice = .state := by simpa [on] using again.1
    have bound := h.bound
    have single := h.single
    simp only [e, List.length_cons, states, List.filter_cons, state, decide_true, if_true] at bound single
    exact order.insertState (by omega) (List.eq_nil_of_length_eq_zero (by unfold states; omega))
  · exact order

theorem Change.keeps_queueInOrder {k : Phase} {s t : State} (change : Change s k t) (h : QueueInOrder s) :
    QueueInOrder t := by
  cases change
  case enqueue n contents =>
    rw [queueInOrder_iff] at h ⊢
    exact h.enqueue contents
  case queueState =>
    rw [queueInOrder_iff] at h ⊢
    rcases queueState_cases s with e | e | ⟨none, room, e⟩
    · rw [e]; exact h
    · rw [e]; exact h
    · rw [e]
      refine h.insertState room (List.filter_eq_nil_iff.2 fun x mem state => ?_)
      simp only [List.any_eq_false] at none
      exact none x mem state
  case bus b queue offer =>
    rw [queueInOrder_iff] at h ⊢
    dsimp only
    rw [queue, offer]
    exact h
  case offer x rest f idle head =>
    rw [queueInOrder_iff, head, idle] at h
    rw [queueInOrder_iff]
    exact h.offer
  case dropOffer offered =>
    rw [queueInOrder_iff, offered] at h
    rw [queueInOrder_iff]
    exact h.endOffer
  case completed offered =>
    rw [queueInOrder_iff, offered] at h
    rw [queueInOrder_iff]
    exact h.completed
  case screwState => obtain ⟨u, e⟩ := setScrew_eq (screwChoice s) s; rw [e]; exact h
  all_goals exact h

/-- Settles O49, since every change of the transmit queue keeps its order. -/
theorem queueOrderKept : Obligations.QueueOrderKept :=
  keptByStep_of_change ⟨fun _ _ h => h, fun _ _ h => h⟩
    ⟨fun _ _ _ _ _ _ => by
        simp [QueueInOrder, resetStation, State.reset, Bus.reset],
      fun _ _ _ _ h => h, fun _ _ _ _ _ _ h => h⟩ Change.keeps_queueInOrder

end Sys2Proof.Machine
end

section
/-! PROOF. The conditions that the units' evaluation brings about at the end of every event: the drive's start conditions,
the screw state and the support valve, the pace, the hold reasons, the injection condition and the outputs. -/

namespace Sys2Proof.Machine

open Sys2Proof

/-! ### The end of an event -/

theorem tailEval_eq (s : State) : ∃ g, tailEval s = { s with grout := g } := by
  unfold tailEval
  split
  · split
    · exact ⟨_, rfl⟩
    · exact ⟨s.grout, rfl⟩
  · exact ⟨s.grout, rfl⟩

theorem injectionEval_eq (s : State) : injectionEval s = { s with grout := (injectionEval s).grout } := by
  obtain ⟨g, tail⟩ := tailEval_eq s
  unfold injectionEval
  dsimp only
  rw [tail]
  split
  · split <;> rfl
  · split <;> rfl
  · rfl

/-- The units as an event leaves them before injection condition, record and outputs follow. -/
def unitsAtEnd (lim : Bool) (e : State) : State := unitsEval lim (erectorEval (unitsEval lim e))

/-- The end of an event at a LISTENING or READY station. -/
theorem settle_eq {lim : Bool} {e : State} (running : e.running = true) :
    settle lim e = setOutputs (syncRecord (injectionEval (unitsAtEnd lim e))) := by
  simp [settle, running, unitsAtEnd]

theorem settle_shape {lim : Bool} {e : State} (running : e.running = true) :
    settle lim e =
      { unitsAtEnd lim e with
        grout := (injectionEval (unitsAtEnd lim e)).grout
        records := (settle lim e).records
        out := (settle lim e).out } := by
  rw [settle_eq running]
  generalize unitsAtEnd lim e = u
  rw [injectionEval_eq u]
  rfl

theorem running_unitsEval (lim : Bool) (s : State) : (unitsEval lim s).running = s.running := by
  have h := congrArg Base.life (base_unitsEval lim s)
  simp only [baseOf] at h
  simp [State.running, h]

theorem running_unitsAtEnd (lim : Bool) (e : State) : (unitsAtEnd lim e).running = e.running := by
  rw [unitsAtEnd, running_unitsEval]
  exact (changes_erectorEval _).fixed.running.trans (running_unitsEval lim e)

/-- A property of the units that neither grout unit, record, outputs nor bus interface enters into is kept by every step
once the units' evaluation brings it about. -/
theorem keptByStep_of_units {P : State → Prop} (timeless : Timeless P)
    (reset : ∀ cause ring history s, P (resetStation cause ring history s))
    (fault : ∀ own clamped s, s.life = .starting → P s →
      P { s with life := .configFault, own := own, configClamped := clamped })
    (quiet : ∀ {s t}, Quiet s t → P s → P t)
    (units : ∀ lim r, r.running = true → P (unitsEval lim r))
    (parts : ∀ s g r o b, P s → P { s with grout := g, records := r, out := o, bus := b }) : KeptByStep P := by
  refine keptByStep_of_settle timeless reset fault quiet fun lim e b running => ?_
  rw [settle_shape running]
  refine parts (unitsAtEnd lim e) _ _ _ b (units lim _ ?_)
  exact (changes_erectorEval _).fixed.running.trans ((running_unitsEval lim e).trans running)

/-! ### Drive (05 R80) -/

theorem startConditions_iff (s : State) :
    startConditions s = true ↔
      s.build.state = .ringOpen ∧ peerBuilding s = false ∧ (spoilStation s).isSome = true ∧ s.view.trips = []
        ∧ s.view.blind = false := by
  simp [startConditions, tripInView, and_assoc]

theorem driveFit_unitsEval {lim : Bool} {r : State} (running : r.running = true) : DriveFit (unitsEval lim r) := by
  intro turns
  have around := unitsEval_surroundings lim r
  have fit : startConditions (unitsEval lim r) = true := by
    rw [startConditions_congr around]
    rw [unitsEval_drive] at turns
    have same : startConditions (driveEval r) = startConditions r := by unfold driveEval; split <;> rfl
    rw [same]
    unfold driveEval at turns
    split at turns
    · simp at turns
    · next fails => simpa [turns] using fails
  exact ⟨(running_unitsEval lim r).trans running, (startConditions_iff _).1 fit⟩

/-- Settles O51, since the evaluation of the units stops a drive whose start conditions fail. -/
theorem driveTurnsOnlyWhenFit : Obligations.DriveTurnsOnlyWhenFit := by
  refine keptByStep_of_units ⟨fun _ _ h => h, fun _ _ h => h⟩ ?_ ?_ ?_ (fun _ _ => driveFit_unitsEval)
    fun _ _ _ _ _ h => h
  · intro cause ring history s turns
    simp [resetStation, State.reset, Drive.reset] at turns
  · intro own clamped s starting h turns
    exact absurd (h turns).1 (by simp [State.running, starting])
  · intro s t quiet h
    cases quiet with
    | inputs x b idle => exact fun turns => absurd (h turns).1 (by simp [idle])
    | faulted b blind completion silence idle => exact fun turns => absurd (h turns).1 (by simp [idle])
    | _ => exact h

/-! ### Screw (06 R94, R95, R99, R101) -/

/-- The screw unit after its evaluation: PRESSURE BLIND with the absence of P_c, the state that 06 R94 chooses, and the
support valve as 06 R99 sets it from how it stood, closed on a change of state. -/
theorem screwEval_effect {s : State} (role : s.cfg.roles.screw = true) :
    (screwEval s).train.reasons.pressureBlind = (controlPressure (screwEval s)).isNone
      ∧ (screwEval s).screw.state = screwChoice (screwEval s)
      ∧ (screwEval s).screw.target = s.screw.target ∧ (screwEval s).screw.band = s.screw.band
      ∧ (screwEval s).screw.support =
          ((screwEval s).screw.state = .buildHold
            && supportChoice s.screw.target s.screw.band (controlPressure (screwEval s))
                (s.screw.support && s.screw.state = (screwEval s).screw.state)) := by
  have around := screwEval_surroundings s
  have eval : screwEval s
      = supportEval (setScrew (screwChoice (pressureBlindEval s)) (pressureBlindEval s)) := by
    simp [screwEval, role]
  have choice : screwChoice (screwEval s) = screwChoice (pressureBlindEval s) := by
    refine screwChoice_congr (around.trans (pressureBlindEval_surroundings s).symm) ?_ ?_
    · rw [eval]; unfold setScrew; split <;> rfl
    · rw [eval]; unfold setScrew; split <;> rfl
  rw [choice, controlPressure_congr around]
  have pressure : ∀ x, controlPressure (setScrew x (pressureBlindEval s)) = controlPressure s := fun x =>
    (congrArg controlPressure (by rfl)).trans (controlPressure_congr (s := setScrew x (pressureBlindEval s)) (t := s) (by
      have := pressureBlindEval_surroundings s
      unfold setScrew
      split
      · exact this
      · exact ⟨this.life, this.own, this.cfg, this.view, this.inputs, this.build, this.driveState⟩))
  have screw : (pressureBlindEval s).screw = s.screw := pressureBlindEval_screw s
  rw [eval]
  simp only [supportEval, pressure]
  unfold setScrew
  split
  · next same =>
    rw [screw] at same ⊢
    exact ⟨pressureBlindEval_pressureBlind s, same, rfl, rfl, by simp⟩
  · next other =>
    rw [screw] at other ⊢
    exact ⟨pressureBlindEval_pressureBlind s, rfl, rfl, rfl, by simp [other]⟩

theorem unitsEval_sameFace (lim : Bool) (r : State) :
    SameSurroundings (unitsEval lim r) (screwEval (driveEval r)) :=
  (unitsEval_surroundings lim r).trans (screwEval_surroundings _).symm

theorem trainEval_pressureBlind (s : State) :
    (trainEval s).train.reasons.pressureBlind = s.train.reasons.pressureBlind := by
  unfold trainEval setPace
  split
  · dsimp only
    split
    · rfl
    · split <;> rfl
  · rfl

section
variable {lim : Bool} {r : State} (role : r.cfg.roles.screw = true)
include role

theorem roles_driveEval : (driveEval r).cfg.roles.screw = true := by
  unfold driveEval; split <;> exact role

theorem unitsEval_pressureBlind :
    (unitsEval lim r).train.reasons.pressureBlind = (controlPressure (unitsEval lim r)).isNone := by
  rw [unitsEval_train, trainEval_pressureBlind, controlPressure_congr (unitsEval_sameFace lim r)]
  exact (screwEval_effect (roles_driveEval role)).1

theorem unitsEval_screwState : (unitsEval lim r).screw.state = screwChoice (unitsEval lim r) := by
  have choice : screwChoice (unitsEval lim r) = screwChoice (screwEval (driveEval r)) :=
    screwChoice_congr (unitsEval_sameFace lim r) (by rw [unitsEval_screw]) (by
      rw [unitsEval_train, trainEval_pressureBlind])
  rw [choice, unitsEval_screw]
  exact (screwEval_effect (roles_driveEval role)).2.1

theorem unitsEval_support :
    (unitsEval lim r).screw.support =
      ((unitsEval lim r).screw.state = .buildHold
        && supportChoice (unitsEval lim r).screw.target (unitsEval lim r).screw.band
            (controlPressure (unitsEval lim r))
            (r.screw.support && r.screw.state = (unitsEval lim r).screw.state)) := by
  have screw : (driveEval r).screw = r.screw := by unfold driveEval; split <;> rfl
  obtain ⟨_, _, target, band, support⟩ := screwEval_effect (roles_driveEval role)
  rw [controlPressure_congr (unitsEval_sameFace lim r), unitsEval_screw, target, band]
  rw [screw] at support ⊢
  exact support

end

/-- The rows of 06 R94, in the terms of the statements. -/
theorem screwChoice_eq {s : State} (blind : s.train.reasons.pressureBlind = (controlPressure s).isNone) :
    screwChoice s =
      if s.life ≠ .ready ∨ s.view.screwConflict = true then .stopped
      else if s.build.state ≠ .ringOpen ∨ peerBuilding s = true then .buildHold
      else if s.screw.target.isSome = true ∧ driveInView s = true ∧ s.view.trips = [] ∧ s.view.blind = false
          ∧ (controlPressure s).isSome = true
      then .running
      else .stopped := by
  simp only [screwChoice, blind, tripInView, Bool.or_eq_true, Bool.and_eq_true, decide_eq_true_eq,
    Bool.not_eq_true', Bool.not_eq_false', List.isEmpty_iff, and_assoc, Option.isNone_eq_false_iff]

theorem screwChosen_unitsEval {lim : Bool} {r : State} : ScrewChosen (unitsEval lim r) := by
  intro _ role
  rw [roles_unitsEval] at role
  rw [unitsEval_screwState role, screwChoice_eq (unitsEval_pressureBlind role)]

/-- A support valve that 06 R99 sets stands open only below P_t, and open below P_t less the band. -/
theorem supportChoice_open {target pc : Option Nat} {band : Nat} {stands : Bool}
    (h : supportChoice target band pc stands = true) : ∃ t, target = some t ∧ ∃ p, pc = some p ∧ p < t := by
  unfold supportChoice at h
  split at h
  · next t p =>
    refine ⟨t, rfl, p, rfl, ?_⟩
    split at h
    · omega
    · split at h
      · simp at h
      · omega
  · simp at h

theorem supportFollows_unitsEval {lim : Bool} {r : State} : SupportFollows (unitsEval lim r) := by
  intro _ role
  rw [roles_unitsEval] at role
  rw [unitsEval_support role]
  refine ⟨fun opened => ?_, fun pt target pc pressure hold low => ?_⟩
  · simp only [Bool.and_eq_true, decide_eq_true_eq] at opened
    exact ⟨opened.1, supportChoice_open opened.2⟩
  · rw [hold, target, pressure, supportChoice, decide_eq_true rfl, Bool.true_and]
    exact if_pos low

theorem keptByStep_screwChosen : KeptByStep ScrewChosen := by
  refine keptByStep_of_units ⟨fun _ _ h => h, fun _ _ h => h⟩ ?_ ?_ ?_ (fun _ _ _ => screwChosen_unitsEval)
    fun _ _ _ _ _ h => h
  · exact fun _ _ _ _ running => by simp [resetStation, State.reset, State.running] at running
  · exact fun _ _ _ _ _ running => by simp [State.running] at running
  · intro s t quiet h
    cases quiet with
    | inputs x b idle => exact fun running => absurd (show s.running = true from running) (by simp [idle])
    | faulted b blind completion silence idle =>
      exact fun running => absurd (show s.running = true from running) (by simp [idle])
    | _ => exact h

theorem keptByStep_supportFollows : KeptByStep SupportFollows := by
  refine keptByStep_of_units ⟨fun _ _ h => h, fun _ _ h => h⟩ ?_ ?_ ?_ (fun _ _ _ => supportFollows_unitsEval)
    fun _ _ _ _ _ h => h
  · exact fun _ _ _ _ running => by simp [resetStation, State.reset, State.running] at running
  · exact fun _ _ _ _ _ running => by simp [State.running] at running
  · intro s t quiet h
    cases quiet with
    | inputs x b idle => exact fun running => absurd (show s.running = true from running) (by simp [idle])
    | faulted b blind completion silence idle =>
      exact fun running => absurd (show s.running = true from running) (by simp [idle])
    | _ => exact h

/-! ### Pace (07 R115, R117) -/

/-- The train unit after its evaluation: TRAIN on the free capacity, NO TARGET, and the pace that the reasons give. -/
theorem trainEval_train {s : State} (role : s.cfg.roles.screw = true) :
    (trainEval s).train =
      { s.train with
        reasons := { s.train.reasons with train := trainGrade s.train, noTarget := s.screw.target.isNone }
        pace :=
          paceOf s.view.screwConflict
            { s.train.reasons with train := trainGrade s.train, noTarget := s.screw.target.isNone } } := by
  unfold trainEval setPace
  rw [if_pos role]
  dsimp only
  split
  · next same => rw [← same]
  · split <;> rfl

/-- The pace that a set of reasons gives (07 R117). -/
theorem paceOf_spec (conflict : Bool) (r : PaceReasons) :
    (paceOf conflict r = .hold ↔
        (conflict = true ∨ r.train = .hold ∨ r.pressureBlind = true ∨ r.beltSilent = true ∨ r.noTarget = true))
      ∧ (paceOf conflict r = .slow → r.train = .slow ∨ r.isOver = true)
      ∧ (paceOf conflict r = .free → r.train = .absent ∧ r.isOver = false) := by
  unfold paceOf
  split
  · next h => simp [h]
  · next h =>
    split
    · next held =>
      simp only [Bool.or_eq_true, decide_eq_true_eq] at held
      simp [h]; tauto
    · next held =>
      simp only [Bool.or_eq_true, decide_eq_true_eq, not_or] at held
      obtain ⟨⟨⟨train, pressureBlind⟩, beltSilent⟩, noTarget⟩ := held
      split
      · next slow =>
        simp only [Bool.or_eq_true, decide_eq_true_eq] at slow
        simp [h, train, pressureBlind, beltSilent, noTarget, slow]
      · next free =>
        simp only [Bool.or_eq_true, decide_eq_true_eq, not_or] at free
        refine ⟨by simp [h, train, pressureBlind, beltSilent, noTarget], by simp, fun _ => ⟨?_, by simpa using free.2⟩⟩
        cases grade : r.train
        · rfl
        · exact absurd grade free.1
        · exact absurd grade train

theorem paceFollows_unitsEval {lim : Bool} {r : State} : PaceFollows (unitsEval lim r) := by
  intro _ role
  rw [roles_unitsEval] at role
  have blind := unitsEval_pressureBlind (lim := lim) role
  have around := unitsEval_sameFace lim r
  have roleThere : (screwEval (driveEval r)).cfg.roles.screw = true := by
    rw [← around.cfg, roles_unitsEval]; exact role
  have train := trainEval_train roleThere
  rw [← unitsEval_train (lim := lim), ← around.view, ← unitsEval_screw (lim := lim)] at train
  refine ⟨?_, blind, ?_, ?_⟩
  · rw [train]; rfl
  · rw [train]
  · rw [train]
    exact paceOf_spec _ _

/-- Settles O53, since the evaluation of the units ends with the reasons judged and the pace that they give. -/
theorem paceFollowsReasons : Obligations.PaceFollowsReasons := by
  refine keptByStep_of_units ⟨fun _ _ h => h, fun _ _ h => h⟩ ?_ ?_ ?_ (fun _ _ _ => paceFollows_unitsEval)
    fun _ _ _ _ _ h => h
  · exact fun _ _ _ _ running => by simp [resetStation, State.reset, State.running] at running
  · exact fun _ _ _ _ _ running => by simp [State.running] at running
  · intro s t quiet h
    cases quiet with
    | inputs x b idle => exact fun running => absurd (show s.running = true from running) (by simp [idle])
    | faulted b blind completion silence idle =>
      exact fun running => absurd (show s.running = true from running) (by simp [idle])
    | _ => exact h

/-! ### Hold reasons (02 R25, R31 to R35) -/

/-- The hold-reason set and the group mode after their evaluation. -/
theorem unitsEval_holds (lim : Bool) (r : State) :
    (unitsEval lim r).thrust.holds = holdsOf (unitsEval lim r)
      ∧ ((unitsEval lim r).thrust.mode = .advance → holdsEmpty (unitsEval lim r).thrust.holds = true)
      ∧ ((unitsEval lim r).thrust.mode = .hold → holdsEmpty (unitsEval lim r).thrust.holds = false) := by
  obtain ⟨p, shape, _⟩ := unitsEval_eq_advanceEval lim r
  rw [shape]
  unfold advanceEval
  split
  · next hold =>
    split
    · next empty => exact ⟨rfl, fun _ => empty, fun h => by simp at h⟩
    · next some_ => exact ⟨rfl, fun h => absurd (hold.symm.trans h) (by simp), fun _ => by simpa using some_⟩
  · next advance =>
    split
    · next empty => exact ⟨rfl, fun _ => empty, fun h => absurd (advance.symm.trans h) (by simp)⟩
    · next some_ => exact ⟨rfl, fun h => by simp at h, fun _ => by simpa using some_⟩
  · next hold advance => exact ⟨rfl, fun h => absurd h advance, fun h => absurd h hold⟩

theorem holdsFollow_of_holds {s : State} (running : s.running = true) (holds : s.thrust.holds = holdsOf s)
    (advance : s.thrust.mode = .advance → holdsEmpty s.thrust.holds = true)
    (hold : s.thrust.mode = .hold → holdsEmpty s.thrust.holds = false) : HoldsFollow s := by
  unfold HoldsFollow
  rw [if_pos running]
  refine ⟨?_, ?_, ?_, ?_, ?_, ?_, ?_, ?_, ?_, advance, hold⟩
  all_goals rw [holds]; rfl

/-- Of the grout unit the hold reasons read the readiness of the line and the minimum alone. -/
theorem holdsOf_withGrout {s : State} {g : Grout} (r : Records) (o : Outputs) (b : Bus)
    (line : lineReady g.line = lineReady s.grout.line) (gmin : g.gmin = s.grout.gmin) :
    holdsOf { s with grout := g, records := r, out := o, bus := b } = holdsOf s := by
  unfold holdsOf groutReady
  dsimp only
  rw [line, gmin]
  rfl

theorem holdsFollow_settle {lim : Bool} {e : State} (b : Bus) (running : e.running = true) :
    HoldsFollow { settle lim e with bus := b } := by
  rw [settle_shape running]
  obtain ⟨holds, advance, hold⟩ := unitsEval_holds lim (erectorEval (unitsEval lim e))
  have same := holdsOf_withGrout (settle lim e).records (settle lim e).out b
    (lineReady_injectionEval (unitsAtEnd lim e)) (congrArg Base.gmin (base_injectionEval (unitsAtEnd lim e)))
  exact holdsFollow_of_holds ((running_unitsAtEnd lim e).trans running) (holds.trans same.symm) advance hold

theorem holdsFollow_idle {s t : State} (idle : s.running = false) (still : t.running = false)
    (thrust : t.thrust = s.thrust) (h : HoldsFollow s) : HoldsFollow t := by
  unfold HoldsFollow at h ⊢
  rw [if_neg (by simp [idle])] at h
  rw [if_neg (by simp [still]), thrust]
  exact h

/-- Settles O54, since the evaluation of the units ends with the hold-reason set, and HOLD and ADVANCE on it. -/
theorem holdReasonsFollowCauses : Obligations.HoldReasonsFollowCauses := by
  refine keptByStep_of_settle ⟨fun _ _ h => h, fun _ _ h => h⟩ ?_ ?_ ?_ (fun _ _ b running => holdsFollow_settle b running)
  · exact fun _ _ _ _ => ⟨rfl, rfl⟩
  · exact fun _ _ s starting h => holdsFollow_idle (s := s) (by simp [State.running, starting]) rfl rfl h
  · intro s t quiet h
    cases quiet with
    | inputs x b idle => exact holdsFollow_idle idle idle rfl h
    | faulted b blind completion silence idle => exact holdsFollow_idle idle idle rfl h
    | _ => exact h

/-! ### Injection and outputs (08 R123, R124, 12 section 12.5) -/

theorem windowOpen_iff (g : GroutSet) (tail : Option Nat) (a : Nat) :
    windowOpen g tail a = true ↔ inWindow g tail a := by
  have window : (if g.opens < g.closes then decide (g.opens ≤ a) && decide (a < g.closes)
      else if g.opens = g.closes then decide (g.opens = 0) else decide (g.opens ≤ a)) = true
      ↔ (g.opens < g.closes ∧ g.opens ≤ a ∧ a < g.closes) ∨ (g.opens = 0 ∧ g.closes = 0)
        ∨ (g.closes < g.opens ∧ g.opens ≤ a) := by
    split
    · simp only [Bool.and_eq_true, decide_eq_true_eq]; omega
    · split
      · simp only [decide_eq_true_eq]; omega
      · simp only [decide_eq_true_eq]; omega
  cases tail with
  | none => simpa [windowOpen, inWindow] using window
  | some t =>
    simp only [windowOpen, inWindow, Bool.or_eq_true, window, Option.getD_some, decide_eq_true_eq, or_assoc]

theorem tailEval_tail {s : State} {p : Nat} (h : (tailEval s).grout.tail = some p) : s.thrust.advance < p := by
  unfold tailEval at h
  split at h
  · next t tail =>
    split at h
    · simp at h
    · next ahead => rw [tail] at h; obtain rfl := Option.some.inj h; omega
  · next none => rw [none] at h; simp at h

/-- The line after the injection condition has been judged (08 R123, R124). -/
theorem injectionEval_spec (s : State) :
    ((injectionEval s).grout.line = .injecting → injectionCondition (injectionEval s) = true)
      ∧ ((injectionEval s).grout.line = .armed → injectionCondition (injectionEval s) = false)
      ∧ ∀ p, (injectionEval s).grout.tail = some p → s.thrust.advance < p := by
  unfold injectionEval
  dsimp only
  split
  · next armed =>
    split
    · next holds => exact ⟨fun _ => holds, fun h => by simp at h, fun p h => tailEval_tail h⟩
    · next fails => exact ⟨fun h => absurd (armed.symm.trans h) (by simp), fun _ => by simpa using fails, fun p h => tailEval_tail h⟩
  · next injecting =>
    split
    · next holds => exact ⟨fun _ => holds, fun h => absurd (injecting.symm.trans h) (by simp), fun p h => tailEval_tail h⟩
    · next fails =>
      have still : injectionCondition (tailEval s) = false := by simpa using fails
      exact ⟨fun h => by simp at h, fun _ => still, fun p h => tailEval_tail h⟩
  · next unarmed uninjecting => exact ⟨fun h => absurd h uninjecting, fun h => absurd h unarmed, fun p h => tailEval_tail h⟩

theorem injectionCondition_iff (s : State) :
    injectionCondition s = true ↔
      s.thrust.mode = .advance ∧ inWindow s.grout.active s.grout.tail s.thrust.advance := by
  rw [injectionCondition, Bool.and_eq_true, decide_eq_true_eq, windowOpen_iff]

theorem injectionFollows_settle {lim : Bool} {e : State} (b : Bus) (running : e.running = true) :
    InjectionFollows { settle lim e with bus := b } := by
  intro _
  rw [settle_eq running]
  obtain ⟨injecting, armed, tail⟩ := injectionEval_spec (unitsAtEnd lim e)
  have thrust := injectionEval_thrust (unitsAtEnd lim e)
  refine ⟨fun h => (injectionCondition_iff _).1 (injecting h), fun h holds => ?_, fun p h => ?_⟩
  · have := armed h
    rw [(injectionCondition_iff (injectionEval (unitsAtEnd lim e))).2 holds] at this
    simp at this
  · have := tail p h
    rwa [← thrust] at this

theorem keptByStep_injectionFollows : KeptByStep InjectionFollows := by
  refine keptByStep_of_settle ⟨fun _ _ h => h, fun _ _ h => h⟩ ?_ ?_ ?_
    (fun _ _ b running => injectionFollows_settle b running)
  · exact fun _ _ _ _ running => by simp [resetStation, State.reset, State.running] at running
  · exact fun _ _ _ _ _ running => by simp [State.running] at running
  · intro s t quiet h
    cases quiet <;> exact h

theorem keptByStep_injectsInAdvance : KeptByStep InjectsInAdvance := by
  refine keptByStep_of_settle ⟨fun _ _ h => h, fun _ _ h => h⟩ ?_ (fun _ _ _ _ h => h) ?_ fun lim e b running => ?_
  · exact fun _ _ _ _ injecting => by simp [resetStation, State.reset, Grout.reset] at injecting
  · intro s t quiet h
    cases quiet <;> exact h
  · have still : ({ settle lim e with bus := b } : State).running = true :=
      (changes_settle lim e).fixed.running.trans running
    exact fun injecting => ((injectionFollows_settle b running still).1 injecting).1

/-- The outputs of a LISTENING or READY station are those of the tables (12 section 12.5). -/
theorem outputsFollow_of_outputs {s : State} (running : s.running = true) (out : s.out = outputsOf s) :
    OutputsFollow s := by
  unfold OutputsFollow
  rw [if_pos running, out]
  refine ⟨?_, ?_, ?_, rfl, rfl, rfl, rfl, rfl, rfl, rfl, by simp [outputsOf], by simp [outputsOf], rfl, rfl⟩
  · cases mode : s.thrust.mode <;> simp [outputsOf, extendOf, retractOf, thrustOutputs, mode]
  · cases state : s.drive.state <;> simp [outputsOf, driveEnableOf, state]
  · cases state : s.drive.state <;> simp [outputsOf, driveRefOf, state]

theorem outputsFollow_settle {lim : Bool} {e : State} (b : Bus) (running : e.running = true) :
    OutputsFollow { settle lim e with bus := b } := by
  refine outputsFollow_of_outputs ((changes_settle lim e).fixed.running.trans running) ?_
  rw [settle_eq running]
  rfl

theorem outputsFollow_idle {s t : State} (idle : s.running = false) (still : t.running = false)
    (out : t.out = s.out) (h : OutputsFollow s) : OutputsFollow t := by
  unfold OutputsFollow at h ⊢
  rw [if_neg (by simp [idle])] at h
  rw [if_neg (by simp [still]), out]
  exact h

theorem keptByStep_outputsFollow : KeptByStep OutputsFollow := by
  refine keptByStep_of_settle ⟨fun _ _ h => h, fun _ _ h => h⟩ ?_ ?_ ?_
    (fun _ _ b running => outputsFollow_settle b running)
  · exact fun _ _ _ _ => rfl
  · exact fun _ _ s starting h => outputsFollow_idle (s := s) (by simp [State.running, starting]) rfl rfl h
  · intro s t quiet h
    cases quiet with
    | inputs x b idle => exact outputsFollow_idle idle idle rfl h
    | faulted b blind completion silence idle => exact outputsFollow_idle idle idle rfl h
    | _ => exact h

/-- Settles O55, since every event ends with the injection condition judged and the outputs set on the units. -/
theorem outputsFollowStates : Obligations.OutputsFollowStates :=
  ⟨keptByStep_injectsInAdvance, keptByStep_outputsFollow, keptByStep_injectionFollows⟩

end Sys2Proof.Machine
end

section
/-! PROOF. The screw unit: the command behind the gate (06 R95), and a support valve that within the band stands as it stood
before the event (06 R99), whatever the event evaluates on its way. -/

namespace Sys2Proof.Machine

open Sys2Proof

theorem screwChosen_settle {lim : Bool} {e : State} (b : Bus) (running : e.running = true) :
    ScrewChosen { settle lim e with bus := b } := by
  rw [settle_shape running]
  exact screwChosen_unitsEval (lim := lim) (r := erectorEval (unitsEval lim e))

/-! ### The screw command (06 R95) -/

/-- What every change keeps of the screw command; at a station with the role the evaluation adds that it is READY. -/
structure CommandGated (s : State) : Prop where
  bound : s.screw.command ≤ s.cfg.nmax
  running : 0 < s.screw.command → s.screw.state = .running
  ready : s.cfg.roles.screw = false → 0 < s.screw.command → s.life = .ready

theorem ScrewGated.commandGated {s : State} (h : ScrewGated s) : CommandGated s :=
  ⟨h.1, fun turns => (h.2 turns).1, fun _ turns => (h.2 turns).2⟩

theorem Change.keeps_commandGated {k : Phase} {s t : State} (change : Change s k t) (h : CommandGated s) :
    CommandGated t := by
  obtain ⟨bound, running, ready⟩ := h
  cases change
  case ready => exact ⟨bound, running, fun _ _ => rfl⟩
  case screw x state command _ =>
    exact ⟨by rw [command]; exact bound, by rw [command, state]; exact running, by rw [command]; exact ready⟩
  case screwSpeed x role state _ _ most =>
    exact ⟨most, fun _ => state, fun absent => absurd (absent.symm.trans role) (by simp)⟩
  case screwState =>
    unfold setScrew
    split
    · exact ⟨bound, running, ready⟩
    · exact ⟨Nat.zero_le _, fun turns => absurd turns (Nat.lt_irrefl 0), fun _ turns => absurd turns (Nat.lt_irrefl 0)⟩
  case queueState => obtain ⟨b, e⟩ := queueState_eq s; rw [e]; exact ⟨bound, running, ready⟩
  all_goals exact ⟨bound, running, ready⟩

/-- In LISTENING and READY the screw runs at a READY station alone (06 R94). -/
theorem CommandGated.screwGated {s : State} (h : CommandGated s) (alive : s.running = true) (chosen : ScrewChosen s) :
    ScrewGated s := by
  refine ⟨h.bound, fun turns => ⟨h.running turns, ?_⟩⟩
  cases role : s.cfg.roles.screw with
  | false => exact h.ready role turns
  | true =>
    have state := chosen alive role
    rw [h.running turns] at state
    by_contra unready
    simp [unready] at state

theorem keptByStep_screwGated : KeptByStep ScrewGated := by
  refine keptByStep_of_outcome ⟨fun _ _ h => h, fun _ _ h => h⟩ fun s t timers h outcome => ?_
  cases outcome with
  | effect effect =>
    have gated := effect.keep Change.keeps_commandGated h.commandGated
    cases effect with
    | quiet quiet _ => cases quiet <;> exact h
    | settled lim b running own evaluated _ =>
      have alive := evaluated.fixed.running.trans (own.fixed.running.trans running)
      exact gated.screwGated ((changes_settle lim _).fixed.running.trans alive) (screwChosen_settle b alive)
  | reset => exact ⟨Nat.zero_le _, fun turns => absurd turns (Nat.lt_irrefl 0)⟩
  | fault own clamped starting =>
    exact ⟨h.1, fun turns => absurd (h.2 turns).2 (by simp [starting])⟩
  | listening own c clamped starting _ =>
    have rests : ¬ 0 < s.screw.command := fun turns => by simpa [starting] using (h.2 turns).2
    have gated : CommandGated (listeningWith own c clamped s) :=
      ⟨(Nat.eq_zero_of_not_pos rests).trans_le (Nat.zero_le _), fun turns => absurd turns rests,
        fun _ turns => absurd turns rests⟩
    have alive := (changes_takeForce (v := s.inputs.force)
      (running_listeningWith own c clamped s)).fixed.running.trans (running_listeningWith own c clamped s)
    exact (enterListening_keeps Change.keeps_commandGated gated).screwGated
      ((changes_settle false _).fixed.running.trans alive)
      (screwChosen_settle (enterListening own c clamped s).bus alive)
  | stray untimely => exact absurd timers untimely

/-! ### The support valve within the band (06 R99) -/

/-- What 06 R94 and R99 read, but for build state and screw unit, and the settings of the screw unit. -/
structure SameFigures (s t : State) : Prop where
  target : t.screw.target = s.screw.target
  band : t.screw.band = s.screw.band
  pressure : controlPressure t = controlPressure s
  life : t.life = s.life
  conflict : t.view.screwConflict = s.view.screwConflict
  peers : peerBuilding t = peerBuilding s

theorem Change.sameFigures {s t : State} (change : Change s .eval t) : SameFigures s t := by
  cases change
  case screwState => unfold setScrew; split <;> exact ⟨rfl, rfl, rfl, rfl, rfl, rfl⟩
  all_goals exact ⟨rfl, rfl, rfl, rfl, rfl, rfl⟩

theorem Changes.sameFigures {s t : State} (h : Changes .eval s t) : SameFigures s t := by
  induction h with
  | refl => exact ⟨rfl, rfl, rfl, rfl, rfl, rfl⟩
  | tail _ change ih =>
    have step := change.sameFigures
    exact ⟨step.target.trans ih.target, step.band.trans ih.band, step.pressure.trans ih.pressure,
      step.life.trans ih.life, step.conflict.trans ih.conflict, step.peers.trans ih.peers⟩

/-- 06 R94 chooses BUILD HOLD here. -/
def holdsBuild (s : State) : Prop :=
  s.life = .ready ∧ s.view.screwConflict = false ∧ (s.build.state ≠ .ringOpen ∨ peerBuilding s = true)

theorem screwChoice_buildHold (s : State) : screwChoice s = .buildHold ↔ holdsBuild s := by
  unfold screwChoice holdsBuild
  split
  · next out =>
    simp only [Bool.or_eq_true, decide_eq_true_eq] at out
    simp only [reduceCtorEq, false_iff]
    rintro ⟨ready, free, _⟩
    rcases out with unready | conflict
    · exact unready ready
    · simp [free] at conflict
  · next in_ =>
    simp only [Bool.or_eq_true, decide_eq_true_eq, not_or, not_not, Bool.not_eq_true] at in_
    split
    · next holds =>
      simp only [Bool.or_eq_true, decide_eq_true_eq] at holds
      simp [in_, holds]
    · next open_ =>
      simp only [Bool.or_eq_true, decide_eq_true_eq] at open_
      simp only [in_, true_and, open_, iff_false]
      split <;> simp

/-- Within the band the valve stands as `stood` says, or it was closed as BUILD HOLD was left for the rest of the event. -/
structure ValveStands (stood : Bool) (s : State) : Prop where
  figures : ∃ pt pc, s.screw.target = some pt ∧ controlPressure s = some pc ∧ pc < pt ∧ pt ≤ pc + s.screw.band
  stands : (s.screw.support = stood ∧ (stood = true → s.screw.state = .buildHold))
    ∨ (s.screw.support = false ∧ ¬holdsBuild s)

theorem supportChoice_in_band {pt pc band : Nat} (low : pc < pt) (high : pt ≤ pc + band) (stands : Bool) :
    supportChoice (some pt) band (some pc) stands = stands := by
  simp only [supportChoice]
  rw [if_neg (by omega), if_neg (by omega)]

theorem Change.keeps_valveStands {stood : Bool} {s t : State} (change : Change s .eval t)
    (h : ValveStands stood s) : ValveStands stood t := by
  obtain ⟨⟨pt, pc, target, pressure, low, high⟩, stands⟩ := h
  have same := change.sameFigures
  refine ⟨⟨pt, pc, same.target.trans target, same.pressure.trans pressure, low, by rw [same.band]; exact high⟩, ?_⟩
  cases change
  case screwState =>
    unfold setScrew
    split
    · exact stands
    · next other =>
      by_cases holds : holdsBuild s
      · rcases stands with ⟨_, hold⟩ | ⟨_, barred⟩
        · cases stood with
          | false => exact .inl ⟨rfl, fun h => by simp at h⟩
          | true => exact absurd ((hold rfl).trans ((screwChoice_buildHold s).2 holds).symm) other
        · exact absurd holds barred
      · exact .inr ⟨rfl, holds⟩
  case support =>
    have valve : (supportEval s).screw.support = (decide (s.screw.state = .buildHold) && s.screw.support) := by
      simp only [supportEval, target, pressure, supportChoice_in_band low high]
    rw [valve]
    rcases stands with ⟨support, hold⟩ | ⟨closed, barred⟩
    · refine .inl ⟨?_, hold⟩
      rw [support]
      cases stood with
      | false => simp
      | true => simp [hold rfl]
    · exact .inr ⟨by simp [closed], barred⟩
  case openUnits =>
    rcases stands with stands | ⟨closed, barred⟩
    · exact .inl stands
    · refine .inr ⟨closed, fun holds => barred ⟨holds.1, holds.2.1, .inr ?_⟩⟩
      exact holds.2.2.resolve_left fun ringOpen => ringOpen rfl
  case suspend building _ =>
    rcases stands with stands | ⟨closed, barred⟩
    · exact .inl stands
    · exact .inr ⟨closed, fun holds => barred ⟨holds.1, holds.2.1, .inl (by simp [building])⟩⟩
  all_goals exact stands

theorem Changes.rule_support {s t : State} (h : Changes .rule s t) :
    t.screw.support = s.screw.support ∧ t.screw.state = s.screw.state := by
  induction h with
  | refl => exact ⟨rfl, rfl⟩
  | @tail u v _ change ih =>
    refine (?_ : v.screw.support = u.screw.support ∧ v.screw.state = u.screw.state).imp
      (·.trans ih.1) (·.trans ih.2)
    cases change
    case screw state _ support => exact ⟨support, state⟩
    case screwSpeed state running support _ => exact ⟨support, state.trans running.symm⟩
    case queueState => obtain ⟨b, e⟩ := queueState_eq u; rw [e]; exact ⟨rfl, rfl⟩
    all_goals exact ⟨rfl, rfl⟩

/-- Within the band the support valve stands after an event as it stood before it (06 R99). -/
theorem support_kept {s t : State} {pt pc : Nat} (follows : SupportFollows s) (outcome : Outcome s t)
    (running : s.running = true) (alive : t.running = true) (role : t.cfg.roles.screw = true)
    (hold : t.screw.state = .buildHold) (target : t.screw.target = some pt) (pressure : controlPressure t = some pc)
    (low : pc < pt) (high : pt ≤ pc + t.screw.band) : t.screw.support = s.screw.support := by
  cases outcome with
  | effect effect =>
    cases effect with
    | quiet quiet _ => cases quiet <;> rfl
    | @settled lim m e b _ own evaluated _ =>
      have settled : Changes .eval m (settle lim e) := evaluated.trans (changes_settle lim e)
      have same := settled.sameFigures
      have cfg : (settle lim e).cfg = s.cfg := settled.fixed.cfg.trans own.fixed.cfg
      obtain ⟨support, state⟩ := own.rule_support
      have before : ValveStands s.screw.support m := by
        refine ⟨⟨pt, pc, same.target.symm.trans target, same.pressure.symm.trans pressure, low, ?_⟩,
          .inl ⟨support, fun stood => state.trans ?_⟩⟩
        · rw [← same.band]; exact high
        · exact ((follows running (by rw [← cfg]; exact role)).1 stood).1
      have after := settled.keep Change.keeps_valveStands before
      rcases after.stands with ⟨stands, _⟩ | ⟨_, barred⟩
      · exact stands
      · have chosen := screwChosen_settle (lim := lim) b
          (evaluated.fixed.running.trans (own.fixed.running.trans running)) alive role
        refine absurd ?_ barred
        rw [hold] at chosen
        split at chosen
        · simp at chosen
        · next in_ =>
          split at chosen
          · next building =>
            simp only [not_or, not_not, Bool.not_eq_true] at in_
            exact ⟨in_.1, in_.2, building⟩
          · split at chosen <;> simp at chosen
  | reset => simp [resetStation, State.reset, State.running] at alive
  | fault => simp [State.running] at alive
  | listening _ _ _ starting => simp [State.running, starting] at running
  | stray _ idle => simp [idle] at running

/-- Settles O52: the command by the changes, screw state and support valve by the evaluation that ends an event, and the
valve within the band by every evaluation on the way. -/
theorem screwGatedAndChosen : Obligations.ScrewGatedAndChosen := by
  refine ⟨keptByStep_screwGated, keptByStep_screwChosen, keptByStep_supportFollows, ?_⟩
  intro pt pc s t follows h running alive role hold target pressure low high
  unfold step at h
  split at h
  · obtain rfl := Host.Outcome.next.inj h
    rfl
  · next c rest _ =>
    exact support_kept (s := { s with pending := rest }) follows (exec_outcome h) running alive role hold target pressure
      low high

end Sys2Proof.Machine
end

section
/-! PROOF. The checks of a command (11 R161, R162): each row of the catalogue has the length, the sources and the equipment
that the statements give its number, so the order of the checks is that of `takeCommand_checks`. -/

namespace Sys2Proof.Machine

open Sys2Proof

/-! ### The rows of the catalogue -/

/-- The number of a command is one of the catalogue's, or RESTART's. -/
theorem catalogue_of_command {i : Instr} {n : Nat} {h : CmdHead} {ops : List Byte}
    (command : commandOf i = some (n, h, ops)) : (∃ c, catalogue n = some c) ∨ n = 30 := by
  cases i <;> simp only [commandOf, Option.some.injEq, Prod.mk.injEq, reduceCtorEq] at command
  all_goals
    obtain ⟨rfl, -, -⟩ := command
    simp [catalogue]

theorem catalogue_number {n : Nat} {c : Command} (found : catalogue n = some c) : c.number = n := by
  unfold catalogue at found
  split at found <;> cases found <;> rfl

/-- A row's operand sizes add up to the catalogue's length (11 section 11.3). -/
theorem catalogue_sizes {n : Nat} {c : Command} (found : catalogue n = some c) (ops : List Byte) :
    (c.sizes ops).sum = catalogueLength n ops := by
  unfold catalogue at found
  split at found <;> cases found
  case h_6 =>
    change (planSizes ops).sum = 3 + 2 * (ops.getD 2 0).toNat
    simp only [planSizes, List.sum_cons, List.sum_replicate, smul_eq_mul, mul_one]
    omega
  all_goals rfl

/-- The unit operand of CLEAR TRIP is its one byte. -/
theorem unit_of_fields {ops : List Byte} {args : List Nat} (fields : splitFields [1] ops = some args) :
    ∃ b : Byte, ops = [b] ∧ args = [b.toNat] := by
  have length : ops.length = 1 := by simpa using (splitFields_isSome [1] ops).1 (by simp [fields])
  obtain ⟨b, rfl⟩ := List.length_eq_one_iff.1 length
  exact ⟨b, rfl, by simpa [splitFields, beNat] using fields.symm⟩

theorem toNat_eq_iff (b : Byte) {k : Nat} (small : k < 256) : b.toNat = k ↔ [b] = [BitVec.ofNat 8 k] := by
  constructor
  · rintro rfl; simp
  · rintro e
    obtain rfl : b = BitVec.ofNat 8 k := by simpa using e
    simpa using Nat.mod_eq_of_lt small

/-- A row permits the sources that the statements permit its number (11 R162, check 1). -/
theorem catalogue_permitted {n : Nat} {c : Command} (found : catalogue n = some c) {ops : List Byte} {args : List Nat}
    (fields : splitFields (c.sizes ops) ops = some args) (src : CmdSource) :
    c.permitted src args = mayCommand n ops src := by
  unfold catalogue at found
  split at found <;> cases found
  case h_4 =>
    obtain ⟨b, rfl, rfl⟩ := unit_of_fields fields
    simp [clearTripCommand, mayCommand, arg, toNat_eq_iff b (k := 2) (by omega)]
  all_goals rfl

/-- A row needs the equipment that the statements ask for its number (11 R162, check 3). -/
theorem catalogue_needs {n : Nat} {c : Command} (found : catalogue n = some c) {ops : List Byte} {args : List Nat}
    (fields : splitFields (c.sizes ops) ops = some args) (r : Roles) : c.needs args r = equipped n ops r := by
  unfold catalogue at found
  split at found <;> cases found
  case h_4 =>
    obtain ⟨b, rfl, rfl⟩ := unit_of_fields fields
    simp [clearTripCommand, equipped, arg, toNat_eq_iff b (k := 1) (by omega)]
  all_goals rfl

/-! ### The checks -/

theorem runCommand_catalogue {n : Nat} {c : Command} (found : catalogue n = some c) (h : CmdHead) (ops : List Byte)
    (s : State) : runCommand h n ops s = takeCommand c h ops s := by
  unfold runCommand
  rw [found]

/-- A number that the catalogue does not hold fails the form check (11 R161). -/
theorem runCommand_unknown {n : Nat} (unknown : n = 0 ∨ 30 < n) (h : CmdHead) (ops : List Byte) {s : State}
    (up : s.life ≠ .starting) : runCommand h n ops s = replyOnly h n (.outOfRange 15) s := by
  have none : catalogue n = none := by
    unfold catalogue
    split
    case h_30 => rfl
    all_goals omega
  unfold runCommand
  rw [none]
  simp only [if_neg (show ¬n = 30 by omega), if_neg up]
  exact answer_refuse h n (by simp) s

/-- Operands of the catalogue's length pass the form check (11 R161). -/
theorem fields_of_length {n : Nat} {c : Command} (found : catalogue n = some c) {ops : List Byte}
    (length : ops.length = catalogueLength n ops) : ∃ args, splitFields (c.sizes ops) ops = some args :=
  Option.isSome_iff_exists.1 ((splitFields_isSome _ _).2 (length.trans (catalogue_sizes found ops).symm))

/-- Settles O3: the form check of a row is the catalogue's length, and RESTART has no operands. -/
theorem commandFormChecked : Obligations.CommandFormChecked := by
  unfold Obligations.CommandFormChecked
  refine ⟨fun i n h ops s command starting => ?_, fun i n h ops s command up length => ?_,
    fun h number ops s unknown up => ?_⟩
  · rw [exec_command command]
    rcases catalogue_of_command command with ⟨c, found⟩ | rfl
    · rw [runCommand_catalogue found, takeCommand_starting starting]
    · exact congrArg Host.Outcome.next (if_pos starting)
  · rw [exec_command command]
    rcases catalogue_of_command command with ⟨c, found⟩ | rfl
    · have unfit : splitFields (c.sizes ops) ops = none := by
        rw [← Option.not_isSome_iff_eq_none, splitFields_isSome, catalogue_sizes found]
        exact length
      rw [runCommand_catalogue found, takeCommand_form up unfit, catalogue_number found]
    · have operands : (!ops.isEmpty) = true := by
        simpa [catalogueLength] using length
      change Host.Outcome.next (restartCommand h ops s) = _
      unfold restartCommand
      rw [if_neg up, if_pos operands, answer_refuse h 30 (by simp)]
  · exact congrArg Host.Outcome.next (runCommand_unknown unknown h ops up)

/-- Settles O4: the checks of `takeCommand_checks`, read in the terms of the statements; RESTART has the source check
alone. -/
theorem commandChecksInOrder : Obligations.CommandChecksInOrder := by
  unfold Obligations.CommandChecksInOrder
  refine ⟨fun i n h ops s command up length source => ?_, fun i n h ops s command life length source known => ?_,
    fun i n h ops s command ready length source known lacks => ?_⟩
  · rw [exec_command command]
    rcases catalogue_of_command command with ⟨c, found⟩ | rfl
    · obtain ⟨args, fields⟩ := fields_of_length found length
      rw [runCommand_catalogue found, takeCommand_checks up fields, catalogue_permitted found fields, if_pos source,
        catalogue_number found]
    · have none : ops = [] := List.length_eq_zero_iff.1 length
      have refused : (!serviceOnly h.source) = true := by simpa [mayCommand, serviceOnly] using source
      change Host.Outcome.next (restartCommand h ops s) = _
      unfold restartCommand
      rw [if_neg up, if_neg (by simp [none]), if_pos refused, answer_refuse h 30 (by simp)]
  · rw [exec_command command]
    obtain ⟨c, found⟩ := (catalogue_of_command command).resolve_right known
    obtain ⟨args, fields⟩ := fields_of_length found length
    have up : s.life ≠ .starting := by rcases life with e | e <;> simp [e]
    have notReady : s.life ≠ .ready := by rcases life with e | e <;> simp [e]
    rw [runCommand_catalogue found, takeCommand_checks up fields, catalogue_permitted found fields,
      if_neg (by simp [source]), if_pos notReady, catalogue_number found]
  · rw [exec_command command]
    obtain ⟨c, found⟩ := (catalogue_of_command command).resolve_right known
    obtain ⟨args, fields⟩ := fields_of_length found length
    rw [runCommand_catalogue found, takeCommand_checks (by simp [ready]) fields, catalogue_permitted found fields,
      if_neg (by simp [source]), if_neg (by simp [ready]), catalogue_needs found fields, if_pos lacks,
      catalogue_number found]

/-! ### The check of the operands -/

/-- At a READY station a command that passes checks 1 to 3 is refused on an operand out of its set (11 R162, check 4). -/
theorem takeCommand_outOfRange {cmd : Command} {h : CmdHead} {ops : List Byte} {args : List Nat} {s : State} {p : Nat}
    (ready : s.life = .ready) (fields : splitFields (cmd.sizes ops) ops = some args)
    (permitted : cmd.permitted h.source args = true) (needs : cmd.needs args s.cfg.roles = true)
    (range : cmd.range args s = some p) :
    takeCommand cmd h ops s = replyOnly h cmd.number (.outOfRange p) s := by
  rw [takeCommand_checks (by simp [ready]) fields, if_neg (by simp [permitted]), if_neg (by simp [ready]),
    if_neg (by simp [needs]), range]

/-- The operand fields that the bytes of a plan's entries spell. -/
def entryFields (es : List (Byte × Byte)) : List Nat := es.flatMap fun b => [b.1.toNat, b.2.toNat]

theorem splitFields_bytes (bs : List Byte) :
    splitFields (List.replicate bs.length 1) bs = some (bs.map BitVec.toNat) := by
  induction bs with
  | nil => rfl
  | cons b bs ih => simp [List.replicate_succ, splitFields, ih, beNat]

theorem length_entryBytes (es : List (Byte × Byte)) : (es.flatMap fun b => [b.1, b.2]).length = 2 * es.length := by
  induction es with
  | nil => rfl
  | cons e es ih => simp only [List.flatMap_cons, List.length_append, ih, List.length_cons, List.length_nil]; omega

/-- The operands of LOAD PLAN spell the ring, the count and the bytes of the entries (11 section 11.3). -/
theorem splitFields_planOperands {ring : Nat} {es : List (Byte × Byte)} (small : ring < 65536) (few : es.length < 256) :
    splitFields (planSizes (planOperands ring es)) (planOperands ring es) =
      some (ring :: es.length :: entryFields es) := by
  have count : ((planOperands ring es).getD 2 0).toNat = es.length := by
    simp [planOperands, beBytes, byteOf, Nat.mod_eq_of_lt few]
  have entries : splitFields (List.replicate (2 * es.length) 1) (es.flatMap fun b => [b.1, b.2]) =
      some (entryFields es) := by
    rw [← length_entryBytes, splitFields_bytes, List.map_flatMap]
    rfl
  have byte : [byteOf es.length] = beBytes 1 es.length := by simp [beBytes]
  rw [planSizes, count, planOperands, byte, List.append_assoc, splitFields_beBytes, splitFields_beBytes, entries]
  simp [Nat.mod_eq_of_lt small, Nat.mod_eq_of_lt few]

/-- Settles O5: each operand passes the form check as sent, and the row's check 4 names its position. -/
theorem operandsOutOfRangeRefused : Obligations.OperandsOutOfRangeRefused := by
  unfold Obligations.OperandsOutOfRangeRefused
  refine ⟨fun h u s high small ready => ?_, fun h v d s hv high small ready role => ?_,
    fun h n c s small out hc ready role => ?_, fun h i s high small ready => ?_, fun h ring es s hr out few ready => ?_⟩
  · have fields : splitFields [1] [byteOf u] = some [u] := by
      simp [splitFields, beNat, byteOf, Nat.mod_eq_of_lt small]
    exact congrArg Host.Outcome.next (takeCommand_outOfRange (cmd := clearTripCommand) ready fields
      (by simp [clearTripCommand, arg]; omega) (by simp [clearTripCommand, arg]; omega)
      (by simp [clearTripCommand, arg, high]))
  · have fields : splitFields [2, 1] (beBytes 2 v ++ beBytes 1 d) = some [v, d] := by
      simp [Nat.mod_eq_of_lt hv, Nat.mod_eq_of_lt small]
    exact congrArg Host.Outcome.next (takeCommand_outOfRange (cmd := startCutterheadCommand) ready fields rfl role
      (by simp [startCutterheadCommand, arg, high]))
  · have fields : splitFields [1, 2] (beBytes 1 n ++ beBytes 2 c) = some [n, c] := by
      simp [Nat.mod_eq_of_lt hc, Nat.mod_eq_of_lt small]
    exact congrArg Host.Outcome.next (takeCommand_outOfRange (cmd := trainInCommand) ready fields rfl role
      (by simp [trainInCommand, arg]; omega))
  · have fields : splitFields [1] (beBytes 1 i) = some [i] := by simp [Nat.mod_eq_of_lt small]
    exact congrArg Host.Outcome.next (takeCommand_outOfRange (cmd := readHistoryCommand) ready fields rfl rfl
      (by simp [readHistoryCommand, arg, high]))
  · have range : planRange (ring :: es.length :: entryFields es) s = some 1 := by
      unfold planRange
      refine if_pos ?_
      rcases out with rfl | many
      · simp [arg]
      · simp [arg, many]
    exact congrArg Host.Outcome.next (takeCommand_outOfRange (cmd := loadPlanCommand) ready
      (splitFields_planOperands hr few) rfl rfl range)

end Sys2Proof.Machine
end

section
/-! PROOF. What the shared operations leave of the base and of the figures of the ring: a pair that enters the trip memory
(01 R15) and the trips that send one (02 R29, 05 R88), entering and leaving BLIND (01 R17, R18). -/

namespace Sys2Proof.Machine

open Sys2Proof

/-! ### The base read field by field -/

/-- The fields of the base that an operation leaves alone, one by one. -/
theorem life_of_base {s t : State} (h : baseOf t = baseOf s) : t.life = s.life := congrArg Base.life h

theorem own_of_base {s t : State} (h : baseOf t = baseOf s) : t.own = s.own := congrArg Base.own h

theorem cfg_of_base {s t : State} (h : baseOf t = baseOf s) : t.cfg = s.cfg := congrArg Base.cfg h

theorem clock_of_base {s t : State} (h : baseOf t = baseOf s) : t.clock = s.clock := congrArg Base.clock h

theorem inputs_of_base {s t : State} (h : baseOf t = baseOf s) : t.inputs = s.inputs := congrArg Base.inputs h

theorem trips_of_base {s t : State} (h : baseOf t = baseOf s) : t.view.trips = s.view.trips :=
  congrArg (fun b => b.view.trips) h

theorem peers_of_base {s t : State} (h : baseOf t = baseOf s) : t.view.peers = s.view.peers :=
  congrArg (fun b => b.view.peers) h

theorem blind_of_base {s t : State} (h : baseOf t = baseOf s) : t.view.blind = s.view.blind :=
  congrArg (fun b => b.view.blind) h

theorem running_of_base {s t : State} (h : baseOf t = baseOf s) : t.running = s.running := by
  simp [State.running, life_of_base h]

/-! ### The trip memory -/

/-- The station with another trip memory. -/
def withTrips (l : List TripPair) (s : State) : State := { s with view := { s.view with trips := l } }

@[simp] theorem base_setTrips (l : List TripPair) (s : State) : baseOf (setTrips l s) = baseOf (withTrips l s) := by
  unfold setTrips
  split
  · exact base_suspendBuild _
  · rfl

@[simp] theorem ring_setTrips (l : List TripPair) (s : State) : ringOf (setTrips l s) = ringOf s := by
  unfold setTrips
  split
  · exact ring_suspendBuild _
  · rfl

@[simp] theorem pressIfWithdrawn_bus (s : State) : (pressIfWithdrawn s).bus = s.bus := by
  rcases pressIfWithdrawn_cases s with e | e | e <;> rw [e] <;> rfl

@[simp] theorem suspendBuild_bus (s : State) : (suspendBuild s).bus = s.bus := by
  rcases suspendBuild_cases s with ⟨_, e⟩ | ⟨_, p, rfl | rfl, e⟩ <;> rw [e] <;> simp

@[simp] theorem setTrips_bus (l : List TripPair) (s : State) : (setTrips l s).bus = s.bus := by
  rcases setTrips_cases l s with ⟨e, _⟩ | ⟨e, _, _⟩ <;> rw [e] <;> simp

@[simp] theorem addTrip_bus (p : TripPair) (s : State) : (addTrip p s).bus = s.bus := setTrips_bus _ s

@[simp] theorem base_addTrip (p : TripPair) (s : State) :
    baseOf (addTrip p s) = baseOf (withTrips (withPair p s.view.trips) s) := base_setTrips _ s

@[simp] theorem ring_addTrip (p : TripPair) (s : State) : ringOf (addTrip p s) = ringOf s := ring_setTrips _ s

/-- The first pair to enter the trip memory suspends a build (03 R46). -/
theorem addTrip_not_building {p : TripPair} {s : State} (first : s.view.trips = []) :
    (addTrip p s).build.state ≠ .building := by
  rcases setTrips_cases (withPair p s.view.trips) s with ⟨_, known | none⟩ | ⟨e, _, _⟩
  · exact absurd first known
  · exact absurd (mem_withPair_self p s.view.trips) (by simp [none])
  · unfold addTrip
    rw [e]
    exact suspendBuild_not_building _

/-! ### The thrust trip -/

theorem base_tripThrust (s : State) :
    baseOf (tripThrust s) = baseOf (withTrips (withPair (s.own, .thrust) s.view.trips) s) := by
  unfold tripThrust
  rw [base_enqueue, base_addTrip]
  exact base_setMode .tripped (withTrips (withPair (s.own, .thrust) s.view.trips) s)

/-- The force a station takes is handed to the record and judged; of the base it can only add the own pair (02 R29). -/
theorem base_takeForce (v : Nat) (s : State) :
    baseOf (takeForce v s) = baseOf s
      ∨ baseOf (takeForce v s) = baseOf (withTrips (withPair (s.own, .thrust) s.view.trips) s) := by
  rcases takeForce_cases v s with ⟨_, _, e⟩ | ⟨_, _, _, e⟩ | ⟨_, _, e⟩
  · rw [e]; exact .inr (base_tripThrust (recordForce v s))
  · rw [e]; exact .inl (by rw [base_decideRetract, base_setMode]; rfl)
  · rw [e]; exact .inl rfl

theorem takeForce_life (v : Nat) (s : State) : (takeForce v s).life = s.life := by
  rcases base_takeForce v s with e | e
  · exact life_of_base e
  · exact congrArg Base.life e

end Sys2Proof.Machine
end

section
/-! PROOF. The lifecycle (12 sections 12.1 to 12.4): what a step takes, what a reset leaves, and the changes of the lifecycle,
read off the outcomes of an event. -/

namespace Sys2Proof.Machine

open Sys2Proof

/-- Settles O1: a step is defined by the front of the queue of waiting events. -/
theorem stepTakesFrontEvent : Obligations.StepTakesFrontEvent := by
  unfold Obligations.StepTakesFrontEvent
  refine ⟨fun c rest s => rfl, fun s empty => ?_⟩
  have idles : step s = .next (idle s) := by
    unfold step
    split
    · rfl
    · next front => simp [empty] at front
  exact idles

/-! ### Resets -/

/-- Settles O6: a reset leaves every unit at rest, so each invariant is about empty queues and plans. -/
theorem resetMeetsInvariants : Obligations.ResetMeetsInvariants := by
  unfold Obligations.ResetMeetsInvariants
  have stopped : State.reset.running = false := rfl
  refine ⟨⟨rfl, rfl, rfl⟩, ⟨fun _ => ⟨rfl, rfl⟩, Nat.zero_le _⟩, ?_, ?_, ?_, ?_, ?_, ?_, ?_, ?_, ?_, ?_, ?_, ?_, ?_, ?_,
    ?_, ?_, ?_, ?_⟩
  · exact ⟨by decide, by decide, .nil, rfl, rfl⟩
  · exact ⟨fun build => absurd rfl build, fun out => absurd out (by decide)⟩
  · exact fun turns => absurd turns (by decide)
  · exact ⟨Nat.zero_le _, fun positive => absurd positive (by decide)⟩
  · exact fun running => absurd (stopped.symm.trans running) (by decide)
  · exact fun running => absurd (stopped.symm.trans running) (by decide)
  · exact ⟨rfl, rfl⟩
  · exact fun injecting => absurd injecting (by decide)
  · exact rfl
  · exact ⟨by decide, trivial, by decide, rfl⟩
  · exact ⟨by decide, rfl, by decide⟩
  · exact fun p r part => absurd part (by simp [State.reset, Record.fresh, Roles.none])
  · exact ⟨by decide, fun plan => absurd rfl plan, fun j e at_j => by simp [State.reset, Build.reset] at at_j,
      .inr ⟨rfl, rfl⟩, fun _ => rfl⟩
  · refine ⟨rfl, fun a e h at_a held => ?_⟩
    have absent : e = PeerEntry.absent := (List.mem_replicate.1 (List.mem_of_getElem? at_a)).2
    rw [absent] at held
    exact absurd held (by simp [PeerEntry.absent])
  · exact ⟨by decide, by decide, fun _ => rfl⟩
  · exact fun running => absurd (stopped.symm.trans running) (by decide)
  · exact fun running => absurd (stopped.symm.trans running) (by decide)
  · exact fun running => absurd (stopped.symm.trans running) (by decide)

/-- Each kind of reset as the one operation that all share (12 R170). -/
theorem exec_reset {i : Instr} {s : State}
    (reset : i = .powerOnReset ∨ i = .pinReset
      ∨ (s.life ≠ .starting ∧ ∃ h : CmdHead, h.source = .service ∧ i = .restart h [])) :
    ∃ cause ring history, exec i s = .next (resetStation cause ring history s)
      ∧ (i = .powerOnReset → ring = 0 ∧ history = [] ∧ cause = .start)
      ∧ (i ≠ .powerOnReset → ring = s.records.ring ∧ history = s.records.history ∧ cause = .restarted) := by
  rcases reset with rfl | rfl | ⟨up, h, service, rfl⟩
  · exact ⟨.start, 0, [], rfl, fun _ => ⟨rfl, rfl, rfl⟩, fun other => absurd rfl other⟩
  · exact ⟨.restarted, _, _, rfl, fun power => Instr.noConfusion power, fun _ => ⟨rfl, rfl, rfl⟩⟩
  · exact ⟨.restarted, _, _, exec_restart service up, fun power => Instr.noConfusion power, fun _ => ⟨rfl, rfl, rfl⟩⟩

/-- Settles O7: the three resets are one operation, which writes every unit's reset values out. -/
theorem everyResetRestoresDefaults : Obligations.EveryResetRestoresDefaults := by
  unfold Obligations.EveryResetRestoresDefaults
  intro i s reset
  obtain ⟨cause, ring, history, run, power, warm⟩ := exec_reset reset
  refine ⟨_, run, ?_⟩
  repeat' apply And.intro
  any_goals rfl
  · exact power
  · exact warm

/-! ### The lifecycle -/

/-- Within an event the lifecycle changes from LISTENING to READY alone, where both conditions are met (12 R168). -/
def LifeFlows (s t : State) : Prop :=
  t.life = s.life ∨ (s.life = .listening ∧ t.life = .ready ∧ t.listen = t.cfg.k + 1 ∧ t.probe = true)

theorem LifeFlows.change {s t u : State} {k : Phase} (h : LifeFlows s t) (c : Change t k u) : LifeFlows s u := by
  have fixed := c.fixed
  cases c
  case listen listening =>
    rcases h with same | ⟨_, ready, _⟩
    · exact .inl same
    · simp [ready] at listening
  case probe listening =>
    rcases h with same | ⟨_, ready, _⟩
    · exact .inl same
    · simp [ready] at listening
  case ready listening count probed =>
    rcases h with same | ⟨_, ready, _⟩
    · exact .inr ⟨same.symm.trans listening, rfl, count, probed⟩
    · simp [ready] at listening
  case screwState => unfold setScrew; split <;> exact h
  case queueState =>
    rcases queueState_cases t with e | e | ⟨_, _, e⟩ <;> (rw [e]; exact h)
  all_goals exact h

theorem Changes.lifeFlows {s t : State} {k : Phase} (h : Changes k s t) : LifeFlows s t :=
  h.keep (P := LifeFlows s) (fun c l => l.change c) (.inl rfl)

/-- What an event makes of the lifecycle (12 R165, R166, R168, R170). -/
inductive LifeStep (s t : State) : Prop
  | within (flows : LifeFlows s t) (own : t.own = s.own) (cfg : t.cfg = s.cfg) (clamped : t.configClamped = s.configClamped)
  | reset (starting : t.life = .starting) (bus : t.bus = Bus.reset) (view : t.view = View.reset)
      (out : t.out = Outputs.starting)
  | read (starting : s.life = .starting) (read : t.life = .configFault ∨ t.life = .listening)

theorem Effect.lifeFlows {s t : State} (h : Effect s t) : LifeFlows s t :=
  h.keep (P := LifeFlows s) (fun c l => l.change c) (.inl rfl)

theorem Effect.fixed {s t : State} (h : Effect s t) : Fixed s t :=
  h.keep (P := Fixed s) (fun c f => f.trans c.fixed) ⟨rfl, rfl, rfl, rfl, rfl⟩

/-- A station that begins LISTENING is LISTENING as the event ends: its listen count is 0. -/
theorem enterListening_life (own : Nat) (c : ConfigValues) (clamped : Bool) (s : State) :
    (enterListening own c clamped s).life = .listening := by
  unfold enterListening
  rw [life_of_base (base_settle false _), takeForce_life]
  rfl

theorem Outcome.lifeStep {s t : State} (h : Outcome s t) : LifeStep s t := by
  cases h with
  | effect effect => exact .within effect.lifeFlows effect.fixed.own effect.fixed.cfg effect.fixed.clamped
  | reset cause ring history _ => exact .reset rfl rfl rfl rfl
  | fault own clamped starting => exact .read starting (.inl rfl)
  | listening own c clamped starting _ => exact .read starting (.inr (enterListening_life own c clamped s))
  | stray _ _ changes => exact .within changes.lifeFlows changes.fixed.own changes.fixed.cfg changes.fixed.clamped

theorem Outcome.pending {s t : State} (h : Outcome s t) : t.pending = s.pending := by
  cases h with
  | effect effect => exact effect.fixed.pending
  | reset cause ring history _ => rfl
  | fault own clamped starting => rfl
  | listening own c clamped starting _ =>
    have changes : Changes .eval (takeForce s.inputs.force (listeningWith own c clamped s))
        (enterListening own c clamped s) := changes_settle false _
    exact changes.fixed.pending.trans (changes_takeForce (running_listeningWith own c clamped s)).fixed.pending
  | stray _ _ changes => exact changes.fixed.pending

/-- Every event has an effect. -/
theorem exec_answers (i : Instr) (s : State) : ∃ t, exec i s = .next t := by
  cases i <;> exact ⟨_, rfl⟩

/-- Settles O2: what holds of every outcome, the lifecycle of each read off `LifeStep`. -/
theorem lifecycleAndConfigurationFixed : Obligations.LifecycleAndConfigurationFixed := by
  unfold Obligations.LifecycleAndConfigurationFixed
  refine ⟨fun i s => ?_, fun i s t h => ?_⟩
  · obtain ⟨t, h⟩ := exec_answers i s
    exact ⟨t, h, (exec_outcome h).pending⟩
  · rcases (exec_outcome h).lifeStep with ⟨flows, own, cfg, clamped⟩ | ⟨starting, bus, view, out⟩ | ⟨starting, read⟩
    · rcases flows with same | ⟨listening, ready, count, probed⟩
      · rw [same]
        refine ⟨fun ⟨now, before⟩ => absurd now before, .inl, .inl, .inl, .inl, fun _ _ => ⟨own, cfg, clamped⟩⟩
      · simp [listening, ready, count, probed, own, cfg, clamped]
    · simp [starting, bus, view, out]
    · rcases read with fault | listening
      · simp [starting, fault]
      · simp [starting, listening]

end Sys2Proof.Machine
end

section
/-! PROOF. Evaluating the units twice: a station whose units are evaluated, with nothing changed that they read, is left as it
is, so where the erector sequence leaves the build alone the first evaluation of an event decides. -/

namespace Sys2Proof.Machine

open Sys2Proof

/-! ### Evaluated units -/

/-- Drive, train and thrust unit stand as their evaluation leaves them. -/
structure Evaluated (s : State) : Prop where
  drive : driveEval s = s
  pressureBlind : s.cfg.roles.screw = true → s.train.reasons.pressureBlind = (controlPressure s).isNone
  train : (trainEval s).train = s.train
  holds : s.thrust.holds = holdsOf s
  advance : s.thrust.mode = .advance → holdsEmpty s.thrust.holds = true
  hold : s.thrust.mode = .hold → holdsEmpty s.thrust.holds = false

/-- The drive's evaluation changes a drive that turns without its start conditions, and nothing else (05 R80). -/
theorem driveEval_eq_self_iff (s : State) :
    driveEval s = s ↔ (s.drive.state = .starting ∨ s.drive.state = .running → startConditions s = true) := by
  unfold driveEval
  split
  · next stops =>
    obtain ⟨turns, unfit⟩ : (s.drive.state = .starting ∨ s.drive.state = .running) ∧ startConditions s = false := by
      simpa using stops
    refine ⟨fun same => ?_, fun fit => ?_⟩
    · have stopping : s.drive.state = .stopping := by rw [← same]; rfl
      simp [stopping] at turns
    · simp [fit turns] at unfit
  · next keeps =>
    simp only [true_iff]
    intro turns
    by_contra unfit
    exact keeps (by simpa using ⟨turns, by simpa using unfit⟩)

theorem driveEval_unitsEval (lim : Bool) (s : State) : driveEval (unitsEval lim s) = unitsEval lim s := by
  rw [driveEval_eq_self_iff, startConditions_congr (unitsEval_surroundings lim s),
    (unitsEval_surroundings lim s).driveState]
  unfold driveEval
  split
  · simp
  · next keeps =>
    intro turns
    by_contra unfit
    exact keeps (by simpa using ⟨turns, by simpa using unfit⟩)

theorem evaluated_unitsEval (lim : Bool) (s : State) : Evaluated (unitsEval lim s) := by
  obtain ⟨holds, advance, hold⟩ := unitsEval_holds lim s
  refine ⟨driveEval_unitsEval lim s, fun role => ?_, ?_, holds, advance, hold⟩
  · exact unitsEval_pressureBlind (by rwa [roles_unitsEval] at role)
  · by_cases role : s.cfg.roles.screw = true
    · have around := unitsEval_sameFace lim s
      have roleThere : (screwEval (driveEval s)).cfg.roles.screw = true := by
        rw [← around.cfg, roles_unitsEval]; exact role
      have train := trainEval_train roleThere
      rw [← unitsEval_train (lim := lim), ← around.view, ← unitsEval_screw (lim := lim)] at train
      rw [trainEval_train (by rwa [roles_unitsEval])]
      conv_rhs => rw [train]
      rw [train]
      rfl
    · unfold trainEval
      rw [if_neg (by rwa [roles_unitsEval])]

/-- Hold reasons depend on the surroundings, the own pace and line, and STOPPED (02 R31 to R35). -/
theorem holdsOf_congr {s t : State} (same : SameSurroundings s t) (pace : s.train.pace = t.train.pace)
    (line : lineReady s.grout.line = lineReady t.grout.line) (gmin : s.grout.gmin = t.grout.gmin)
    (stopped : s.thrust.holds.stopped = t.thrust.holds.stopped) : holdsOf s = holdsOf t := by
  have fresh : freshPeers s = freshPeers t := by
    unfold freshPeers freshBody entryOf
    rw [same.own, same.view]
  unfold holdsOf peerBuilding spoilPace spoilStation groutReady tripInView entryOf
  rw [fresh, same.own, same.cfg, same.view, same.inputs, same.build, same.driveState, pace, line, gmin, stopped]

/-- A change of nothing that the units read leaves them evaluated. -/
theorem Evaluated.congr {s t : State} (h : Evaluated s) (same : SameSurroundings t s) (drive : t.drive = s.drive)
    (screw : t.screw.target = s.screw.target) (train : t.train = s.train)
    (line : lineReady t.grout.line = lineReady s.grout.line) (gmin : t.grout.gmin = s.grout.gmin)
    (thrust : t.thrust = s.thrust) : Evaluated t := by
  refine ⟨?_, fun role => ?_, ?_, ?_, ?_, ?_⟩
  · rw [driveEval_eq_self_iff, startConditions_congr same, drive]
    exact (driveEval_eq_self_iff s).1 h.drive
  · rw [train, controlPressure_congr same]
    exact h.pressureBlind (by rwa [same.cfg] at role)
  · rw [trainEval_congr same.view same.cfg train screw, h.train, train]
  · rw [thrust, h.holds]
    exact (holdsOf_congr same (by rw [train]) line gmin (by rw [thrust])).symm
  · rw [thrust]; exact h.advance
  · rw [thrust]; exact h.hold

/-- The units keep the advance mark of a group that keeps its mode (02 R22). -/
theorem unitsEval_mark {lim : Bool} {s : State} (mode : (unitsEval lim s).thrust.mode = s.thrust.mode) :
    (unitsEval lim s).thrust.mark = s.thrust.mark := by
  have advanced : ∀ p : State, (advanceEval (holdsEval p)).thrust.mode = p.thrust.mode →
      (advanceEval (holdsEval p)).thrust.mark = p.thrust.mark := by
    intro p same
    unfold advanceEval at same ⊢
    split
    · next hold =>
      split
      · next empty =>
        simp only [hold, if_pos empty] at same
        exact absurd (same.trans hold) (by simp)
      · rfl
    · next advance =>
      split
      · rfl
      · next held =>
        simp only [advance, if_neg held] at same
        exact absurd (same.trans advance) (by simp)
    · rfl
  have paced : ∀ p : State, (trainEval p).thrust.mark = p.thrust.mark := by
    intro p
    unfold trainEval setPace
    dsimp only
    repeat' split
    all_goals rfl
  have before : (trainEval (screwEval (driveEval s))).thrust.mark = s.thrust.mark := by
    rw [paced, screwEval_thrust, driveEval_thrust]
  have modeBefore : (trainEval (screwEval (driveEval s))).thrust.mode = s.thrust.mode := by simp
  cases lim
  · exact (advanced _ (mode.trans modeBefore.symm)).trans before
  · exact (advanced (limitEval _) (mode.trans modeBefore.symm)).trans before

/-- Evaluating evaluated units leaves group mode, hold reasons, drive and train unit as they are. -/
theorem Evaluated.again {s : State} (h : Evaluated s) (lim : Bool) :
    (unitsEval lim s).thrust.mode = s.thrust.mode ∧ (unitsEval lim s).thrust.mark = s.thrust.mark
      ∧ (unitsEval lim s).thrust.holds = s.thrust.holds ∧ (unitsEval lim s).drive = s.drive
      ∧ (unitsEval lim s).train = s.train := by
  have drive : (unitsEval lim s).drive = s.drive := by rw [unitsEval_drive, h.drive]
  have screw : (screwEval s).train = s.train := screwEval_train h.pressureBlind
  have around := screwEval_surroundings s
  have target : (screwEval s).screw.target = s.screw.target :=
    congrArg Base.faceTarget (base_screwEval s)
  have train : (unitsEval lim s).train = s.train := by
    rw [unitsEval_train, h.drive, trainEval_congr around.view around.cfg screw target, h.train]
  have same : SameSurroundings (unitsEval lim s) s := by
    have first := unitsEval_surroundings lim s
    rwa [h.drive] at first
  obtain ⟨holds, advance, hold⟩ := unitsEval_holds lim s
  have holds : (unitsEval lim s).thrust.holds = s.thrust.holds := by
    rw [holds, h.holds]
    exact holdsOf_congr same (by rw [train]) (by simp) (by simp) (congrArg Base.stopped (base_unitsEval lim s))
  have mode : (unitsEval lim s).thrust.mode = s.thrust.mode := by
    rcases unitsEval_mode_cases lim s with e | ⟨hold' | advance', is⟩
    · exact e
    · rcases is with e | e
      · rw [e, hold']
      · exact absurd (advance e) (by rw [holds, h.hold hold']; simp)
    · rcases is with e | e
      · exact absurd (hold e) (by rw [holds, h.advance advance']; simp)
      · rw [e, advance']
  exact ⟨mode, unitsEval_mark mode, holds, drive, train⟩

/-! ### What a frame is about -/

/-- PRESSURE BLIND stands evaluated: the reason follows P_c, and the record is flagged with it (06 R101). -/
theorem pressureBlindEval_eq_self_iff (s : State) :
    pressureBlindEval s = s ↔
      s.train.reasons.pressureBlind = (controlPressure s).isNone
        ∧ ((controlPressure s).isNone = true →
            s.records.current.spoil.map (fun p => { p with pressureBlind := true }) = s.records.current.spoil) := by
  constructor
  · intro same
    have reason := pressureBlindEval_pressureBlind s
    rw [same] at reason
    refine ⟨reason, fun absent => ?_⟩
    have flagged : (pressureBlindEval s).records.current.spoil =
        s.records.current.spoil.map (fun p => { p with pressureBlind := true }) := by
      unfold pressureBlindEval
      rw [if_pos absent]
      rfl
    rw [← flagged, same]
  · rintro ⟨reason, flagged⟩
    unfold pressureBlindEval
    dsimp only
    rw [← reason]
    split
    · next absent =>
      unfold onSpoilPart
      dsimp only
      rw [flagged (by rw [← reason]; exact absent)]
    · rfl

theorem screwEval_eq (s : State) (role : s.cfg.roles.screw = true) :
    ∃ u, screwEval s = { pressureBlindEval s with screw := u } := by
  obtain ⟨u, shape⟩ := setScrew_eq (screwChoice (pressureBlindEval s)) (pressureBlindEval s)
  unfold screwEval
  dsimp only
  rw [if_pos role, shape]
  exact ⟨_, rfl⟩

/-- The screw unit stands evaluated with the screw itself and PRESSURE BLIND. -/
theorem screwEval_eq_self_iff (s : State) :
    screwEval s = s ↔ (s.cfg.roles.screw = true → (screwEval s).screw = s.screw ∧ pressureBlindEval s = s) := by
  by_cases role : s.cfg.roles.screw = true
  · obtain ⟨u, shape⟩ := screwEval_eq s role
    simp only [role, true_implies]
    rw [shape]
    constructor
    · intro same
      refine ⟨congrArg State.screw same, ?_⟩
      have back : { ({ pressureBlindEval s with screw := u } : State) with screw := (pressureBlindEval s).screw }
          = pressureBlindEval s := rfl
      rw [← back, same, pressureBlindEval_screw]
    · rintro ⟨screw, same⟩
      rw [same]
      exact congrArg (fun x => { s with screw := x }) screw
  · have none : screwEval s = s := if_neg role
    simp [role, none]

/-- The train unit stands evaluated with the train itself: an unchanged pace queues no notice (07 R118). -/
theorem trainEval_eq_self_iff (s : State) : trainEval s = s ↔ (trainEval s).train = s.train := by
  refine ⟨fun same => by rw [same], fun train => ?_⟩
  by_cases role : s.cfg.roles.screw = true
  · rw [trainEval_train role] at train
    have pace := congrArg Train.pace train
    have reasons := congrArg Train.reasons train
    dsimp only at pace reasons
    unfold trainEval setPace
    rw [if_pos role]
    dsimp only
    rw [if_pos pace.symm, reasons]
  · unfold trainEval
    rw [if_neg role]

/-- A frame is about base, figures of the ring, plan, erector, drive, screw and train unit and the spoil flags alone, so it
stands for a station that agrees in these. -/
theorem FrameOf.congr {d e t : State} (h : FrameOf e t) (base : baseOf e = baseOf d) (ring : ringOf e = ringOf d)
    (plan : planOf e = planOf d) (erector : e.erector = d.erector) (drive : e.drive = d.drive)
    (screw : e.screw = d.screw) (train : e.train = d.train)
    (spoil : e.records.current.spoil = d.records.current.spoil) : FrameOf d t := by
  obtain ⟨baseT, ringT, units⟩ := h
  have view : e.view = d.view := by
    have lring : e.view.lring = d.view.lring := congrArg RingPart.lring ring
    have rest := congrArg Base.view base
    simp only [baseOf] at rest
    calc e.view = { ({ e.view with lring := 0 } : View) with lring := e.view.lring } := rfl
      _ = { ({ d.view with lring := 0 } : View) with lring := d.view.lring } := by rw [rest, lring]
      _ = d.view := rfl
  have state : (planOf e).state = (planOf d).state := by rw [plan]
  have same : SameSurroundings e d :=
    ⟨life_of_base base, own_of_base base, cfg_of_base base, view, inputs_of_base base, state, by rw [drive]⟩
  refine ⟨baseT.trans base, fun waits => (ringT (by rwa [erector])).trans ring, fun absent => ?_⟩
  obtain ⟨planT, erectorT, evaluated⟩ := units (by rwa [same.cfg])
  refine ⟨planT.trans plan, erectorT.trans erector, fun driveD => ?_⟩
  have driveE : driveEval e = e := by
    rw [driveEval_eq_self_iff, startConditions_congr same, drive]
    exact (driveEval_eq_self_iff d).1 driveD
  obtain ⟨driveT, evaluated⟩ := evaluated driveE
  refine ⟨driveT.trans drive, fun screwD => ?_⟩
  have screwE : screwEval e = e := by
    rw [screwEval_eq_self_iff]
    intro role
    obtain ⟨stands, blind⟩ := (screwEval_eq_self_iff d).1 screwD (by rwa [← same.cfg])
    refine ⟨by rw [screwEval_congr same screw, stands, screw], ?_⟩
    rw [pressureBlindEval_eq_self_iff] at blind ⊢
    rw [controlPressure_congr same, train, spoil]
    exact blind
  obtain ⟨screwT, evaluated⟩ := evaluated screwE
  refine ⟨screwT.trans screw, fun trainD => ?_⟩
  have trainE : trainEval e = e := by
    rw [trainEval_eq_self_iff, trainEval_congr same.view same.cfg train (by rw [screw]), train]
    exact (trainEval_eq_self_iff d).1 trainD
  exact (evaluated trainE).trans train

/-! ### Open ring -/

/-- In an open ring the erector sequence changes itself and the queue alone, so the first evaluation of the units
decides group mode and advance mark of the event. -/
theorem settle_thrust_ringOpen {lim : Bool} {s : State} (running : s.running = true)
    (ringOpen : s.build.state = .ringOpen) :
    (settle lim s).thrust.mode = (unitsEval lim s).thrust.mode
      ∧ (settle lim s).thrust.mark = (unitsEval lim s).thrust.mark := by
  obtain ⟨x, b, shape⟩ := erectorEval_shape_ringOpen (s := unitsEval lim s) (by rw [unitsEval_build_state, ringOpen])
  have evaluated : Evaluated (erectorEval (unitsEval lim s)) := by
    rw [shape]
    exact (evaluated_unitsEval lim s).congr ⟨rfl, rfl, rfl, rfl, rfl, rfl, rfl⟩ rfl rfl rfl rfl rfl rfl
  obtain ⟨mode, mark, _⟩ := evaluated.again lim
  rw [settle_thrust running, mode, mark, shape]
  exact ⟨rfl, rfl⟩

/-- In an open ring the end of an event leaves the plan as it is. -/
theorem settle_plan_ringOpen {lim : Bool} {s : State} (ringOpen : s.build.state = .ringOpen) :
    planOf (settle lim s) = planOf s := by
  obtain ⟨x, b, shape⟩ := erectorEval_shape_ringOpen (s := unitsEval lim s) (by rw [unitsEval_build_state, ringOpen])
  have worked : planOf (erectorEval (unitsEval lim s)) = planOf s := by
    rw [shape]; exact plan_unitsEval lim s
  unfold settle
  split
  · change planOf (injectionEval (unitsEval lim (erectorEval (unitsEval lim s)))) = planOf s
    rw [plan_injectionEval, plan_unitsEval, worked]
  · rfl

end Sys2Proof.Machine
end

section
/-! PROOF. The thrust unit's commands and inputs (02): START and STOP ADVANCE, the stroke, force and retracted-limit inputs,
each with its effect before the units are evaluated, and group mode and outputs as the event ends. -/

namespace Sys2Proof.Machine

open Sys2Proof

/-! ### How an event ends -/

theorem holdsFollow_at_end {lim : Bool} {e : State} (running : e.running = true) : HoldsFollow (settle lim e) :=
  holdsFollow_settle (settle lim e).bus running

theorem outputsFollow_at_end {lim : Bool} {e : State} (running : e.running = true) : OutputsFollow (settle lim e) :=
  outputsFollow_settle (settle lim e).bus running

/-- A group in ADVANCE has no hold reason (02 R25). -/
theorem HoldsFollow.empty_of_advance {s : State} (h : HoldsFollow s) (running : s.running = true)
    (advance : s.thrust.mode = .advance) : holdsEmpty s.thrust.holds = true := by
  unfold HoldsFollow at h
  rw [if_pos running] at h
  obtain ⟨_, _, _, _, _, _, _, _, _, empty, _⟩ := h
  exact empty advance

theorem HoldsFollow.nonempty_of_hold {s : State} (h : HoldsFollow s) (running : s.running = true)
    (hold : s.thrust.mode = .hold) : holdsEmpty s.thrust.holds = false := by
  unfold HoldsFollow at h
  rw [if_pos running] at h
  obtain ⟨_, _, _, _, _, _, _, _, _, _, nonempty⟩ := h
  exact nonempty hold

/-- A group in ADVANCE is not stopped, in no build, below S_max, and no trip is in view (02 R25, R31 to R35). -/
theorem HoldsFollow.free_of_advance {s : State} (h : HoldsFollow s) (running : s.running = true)
    (advance : s.thrust.mode = .advance) :
    s.thrust.holds.stopped = false ∧ s.build.state = .ringOpen ∧ s.inputs.stroke < s.cfg.smax
      ∧ s.view.trips = [] ∧ s.view.blind = false := by
  have empty := h.empty_of_advance running advance
  unfold HoldsFollow at h
  rw [if_pos running] at h
  obtain ⟨build, _, _, _, _, trip, blind, _, stroke, _⟩ := h
  simp only [holdsEmpty, holdFlags, List.any_cons, List.any_nil, id_eq, Bool.not_eq_true', Bool.or_eq_false_iff]
    at empty
  obtain ⟨stopped, noBuild, _, _, _, _, noTrip, noBlind, _, noEnd, _⟩ := empty
  refine ⟨stopped, by simpa [build] using noBuild, by simpa [stroke] using noEnd, by simpa [trip] using noTrip,
    by rw [← blind, noBlind]⟩

theorem running_settle (lim : Bool) (e : State) : (settle lim e).running = e.running :=
  running_of_base (base_settle lim e)

/-- At a station without the ERECTOR role the end of an event moves the group between HOLD and ADVANCE alone. -/
theorem settle_mode_of_absent {lim : Bool} {e : State} (running : e.running = true)
    (absent : e.cfg.roles.erector = false) :
    (settle lim e).thrust.mode = e.thrust.mode
      ∨ ((e.thrust.mode = .hold ∨ e.thrust.mode = .advance)
          ∧ ((settle lim e).thrust.mode = .hold ∨ (settle lim e).thrust.mode = .advance)) := by
  rw [settle_thrust running, erectorEval_absent (by rwa [roles_unitsEval])]
  have second := unitsEval_mode_cases lim (unitsEval lim e)
  rcases unitsEval_mode_cases lim e with first | ⟨was, is⟩
  · rwa [first] at second
  · rcases second with same | ⟨_, is'⟩
    · rw [same]; exact .inr ⟨was, is⟩
    · exact .inr ⟨was, is'⟩

/-- A group in HOLD or ADVANCE stands as the event ends as the hold reasons have it (02 R25). -/
theorem settle_mode_of_holds {lim : Bool} {e : State} (running : e.running = true)
    (is : (settle lim e).thrust.mode = .hold ∨ (settle lim e).thrust.mode = .advance) :
    (settle lim e).thrust.mode = if holdsEmpty (settle lim e).thrust.holds then .advance else .hold := by
  have follows := holdsFollow_at_end (lim := lim) running
  have alive := (running_settle lim e).trans running
  rcases is with hold | advance
  · rw [follows.nonempty_of_hold alive hold, hold]; rfl
  · rw [follows.empty_of_advance alive advance, advance]; rfl

/-! ### START ADVANCE and STOP ADVANCE -/

@[simp] theorem plan_answer (h : CmdHead) (n : Nat) (a : Answer) : planOf (answer h n a) = planOf a.state := by
  simp [planOf]

theorem exec_startAdvance (h : CmdHead) {s : State} (ready : s.life = .ready) :
    exec (.startAdvance h []) s = .next (answer h 1 (startAdvanceCommand.owner [] s)) :=
  congrArg Host.Outcome.next (takeCommand_ready (cmd := startAdvanceCommand) ready rfl rfl rfl rfl)

theorem exec_stopAdvance (h : CmdHead) {s : State} (ready : s.life = .ready) :
    exec (.stopAdvance h []) s = .next (answer h 2 (done (settle false (setStopped true s)))) :=
  congrArg Host.Outcome.next (takeCommand_ready (cmd := stopAdvanceCommand) ready rfl rfl rfl rfl)

/-- Settles O9: the effect is STOPPED alone, and HOLD and ADVANCE follow the hold reasons as the event ends. -/
theorem advanceCommandsSetStopped : Obligations.AdvanceCommandsSetStopped := by
  unfold Obligations.AdvanceCommandsSetStopped
  refine ⟨fun h s ready ringOpen => ?_, fun h s ready build => ?_, fun h s ready => ?_⟩
  · have running : (setStopped false s).running = true := running_of_ready ready
    have taken : startAdvanceCommand.owner [] s = done (settle false (setStopped false s)) := if_pos ringOpen
    have run : exec (.startAdvance h []) s = .next (answer h 1 (done (settle false (setStopped false s)))) := by
      rw [exec_startAdvance h ready, taken]
    refine ⟨_, run, frame_answer h 1 (settle_frame false (setStopped false s)), ?_,
      answered_done_settle h 1 (queueKept_same rfl), ?_, ?_⟩
    · rw [plan_answer]
      exact settle_plan_ringOpen (s := setStopped false s) ringOpen
    · intro hold
      rw [answer_thrust]
      exact settle_follows_holds running false ringOpen hold
    · intro hold advance
      rw [answer_thrust]
      exact (settle_mode_ringOpen running false ringOpen).resolve_right fun ⟨was, _⟩ => was.elim hold advance
  · have refused : startAdvanceCommand.owner [] s = refuse .busy s := if_neg build
    rw [exec_startAdvance h ready, refused, answer_refuse h 1 (by simp)]
  · have running : (setStopped true s).running = true := running_of_ready ready
    refine ⟨_, exec_stopAdvance h ready, frame_answer h 2 (settle_frame false (setStopped true s)),
      answered_done_settle h 2 (queueKept_same rfl), ?_⟩
    rw [answer_thrust]
    intro advance
    obtain ⟨stopped, _⟩ := (holdsFollow_at_end running).free_of_advance ((running_settle _ _).trans running) advance
    have kept : (settle false (setStopped true s)).thrust.holds.stopped = true :=
      congrArg Base.stopped (base_settle false (setStopped true s))
    rw [stopped] at kept
    exact absurd kept (by simp)

/-! ### The stroke input -/

theorem readingOr_eq {failed greatest : Nat} {r : Reading} (fits : readingFits greatest r = true) :
    readingOr failed greatest r = r.getD failed := by
  cases r with
  | none => rfl
  | some v => exact min_eq_left (by simpa [readingFits] using fits)

/-- The station with the stroke at `v` and what lies above the advance mark counted, the mark at `m` (02 R22). -/
def strokeTaken (v : Nat) (m : Option Nat) (s : State) : State :=
  { s with
    inputs := { s.inputs with stroke := v }
    thrust :=
      { s.thrust with
        advance :=
          if s.thrust.mode = .advance then min (s.thrust.advance + (v - s.thrust.mark.getD 32767)) 65535
          else s.thrust.advance
        mark := m } }

/-- A stroke within its range counts as 02 R22 gives it; in ADVANCE the mark rises to it. -/
theorem countStroke_eq {v : Nat} {s : State} (fits : v ≤ 32767) (bound : s.thrust.advance ≤ 65535) :
    ∃ m, countStroke v { s with inputs := { s.inputs with stroke := v } } = strokeTaken v m s
      ∧ (s.thrust.mode = .advance → m = s.thrust.mark.map (fun m => max m v)) := by
  unfold countStroke strokeTaken
  dsimp only
  split
  · next m advance marked =>
    rw [if_pos advance, marked]
    split
    · next above => exact ⟨some v, rfl, fun _ => by simp [above.le]⟩
    · next below =>
      refine ⟨some m, ?_, fun _ => by simp; omega⟩
      have none : min (s.thrust.advance + (v - (some m).getD 32767)) 65535 = s.thrust.advance := by
        simp only [Option.getD_some]; omega
      rw [none, ← marked]
  · next other =>
    refine ⟨s.thrust.mark, ?_, fun advance => ?_⟩
    · split
      · next advance =>
        have unmarked : s.thrust.mark = none := by
          cases marked : s.thrust.mark with
          | none => rfl
          | some m => exact absurd marked (other m advance)
        have none : min (s.thrust.advance + (v - s.thrust.mark.getD 32767)) 65535 = s.thrust.advance := by
          rw [unmarked, Option.getD_none]; omega
        rw [none]
      · rfl
    · cases marked : s.thrust.mark with
      | none => rfl
      | some m => exact absurd marked (other m advance)

/-- Settles O12: the effect is what the stroke counts, the mark is no part of the frame, and the group is in ADVANCE as
the event ends only in an open ring, where the first evaluation of the units decides. -/
theorem strokeReadingCounted : Obligations.StrokeReadingCounted := by
  unfold Obligations.StrokeReadingCounted
  refine ⟨fun r s running fits bound => ?_, fun r s idle fits => ?_⟩
  · have range : r.getD 32767 ≤ 32767 := by
      rw [← readingOr_eq fits]
      unfold readingOr
      split
      · exact le_refl _
      · exact min_le_right _ _
    obtain ⟨m, counted, mark⟩ := countStroke_eq range bound
    have run : exec (.strokeReading r) s = .next (settle false (strokeTaken (r.getD 32767) m s)) := by
      change Host.Outcome.next (strokeReading r s) = _
      unfold strokeReading
      rw [if_pos running, readingOr_eq fits, counted]
    have alive : (strokeTaken (r.getD 32767) m s).running = true := running
    refine ⟨_, run, ?_, fun reached advance => ?_, fun follows before after => ?_⟩
    · exact (settle_frame false (strokeTaken (r.getD 32767) m s)).congr rfl rfl rfl rfl rfl rfl rfl rfl
    · obtain ⟨_, _, below, _⟩ :=
        (holdsFollow_at_end alive).free_of_advance ((running_settle _ _).trans alive) advance
      rw [inputs_of_base (base_settle _ _), cfg_of_base (base_settle _ _)] at below
      exact absurd below (Nat.not_lt.2 reached)
    · obtain ⟨_, ringOpen, _⟩ := follows.free_of_advance running before
      obtain ⟨modeEnd, markEnd⟩ := settle_thrust_ringOpen (lim := false) alive ringOpen
      rw [markEnd, unitsEval_mark ((modeEnd.symm.trans after).trans before.symm)]
      exact mark before
  · change Host.Outcome.next (strokeReading r s) = _
    unfold strokeReading
    rw [if_neg (by simp [idle]), readingOr_eq fits]

/-! ### The force input -/

/-- The station with a force at its input, before it is taken. -/
def withForce (v : Nat) (s : State) : State := { s with inputs := { s.inputs with force := v } }

theorem exec_forceReading {r : Reading} {s : State} (running : s.running = true) (fits : readingFits 20000 r = true) :
    exec (.forceReading r) s = .next (settle false (takeForce (r.getD 20000) (withForce (r.getD 20000) s))) := by
  change Host.Outcome.next (forceReading r s) = _
  unfold forceReading
  rw [if_pos running, readingOr_eq fits]
  rfl

/-- The outputs of the thrust group as an event ends (02 R24). -/
theorem thrustOutputs_at_end {lim : Bool} {e : State} (running : e.running = true) :
    ((settle lim e).out.extend, (settle lim e).out.retract, (settle lim e).out.lock) =
      thrustOutputs (settle lim e).thrust.mode (settle lim e).thrust.vlim (settle lim e).inputs.retracted := by
  have follows := outputsFollow_at_end (lim := lim) running
  unfold OutputsFollow at follows
  rw [if_pos ((running_settle lim e).trans running)] at follows
  exact follows.1

/-- A TRIP notice queued by an event stands in the queue as it ends (10 R158, R159). -/
theorem trip_sent {c : TripCause} {e : State} (room : e.bus.queue.length < 6) (lim : Bool) :
    ∃ x ∈ (settle lim (enqueue (.trip c) e)).bus.queue, x.notice = .trip c := by
  have queued := mem_queueAfter (.trip c) room
  have kept := (evalKeeps_settle lim (enqueue (.trip c) e)).queue.1
  exact ⟨_, kept.subset (List.mem_filter.2 ⟨queued, by simp [noticeClass]⟩), rfl⟩

theorem running_tripThrust (s : State) : (tripThrust s).running = s.running :=
  (running_of_base (base_tripThrust s)).trans rfl

theorem tripThrust_mode (s : State) : (tripThrust s).thrust.mode = .tripped := by
  have kept : ∀ (p : TripPair) (t : State), t.thrust.mode = .tripped → (addTrip p t).thrust.mode = .tripped := by
    intro p t tripped
    rcases setTrips_cases (withPair p t.view.trips) t with ⟨e, _⟩ | ⟨e, _, _⟩
    · unfold addTrip; rw [e]; exact tripped
    · unfold addTrip
      rw [e]
      exact (evalKeeps_suspendBuild _).tripped.2 tripped
  exact kept _ _ rfl

/-- Settles O13: the three cases of `takeForce`, each with what the evaluation that ends the event leaves of it. -/
theorem forceReadingJudged : Obligations.ForceReadingJudged := by
  unfold Obligations.ForceReadingJudged
  refine ⟨fun r s running fits high armed => ?_, fun r s running fits low pressing pressed => ?_,
    fun r s running fits harmless unpressed => ?_⟩
  · have taken : takeForce (r.getD 20000) (withForce (r.getD 20000) s) =
        tripThrust (recordForce (r.getD 20000) (withForce (r.getD 20000) s)) := by
      unfold takeForce judgeForce
      rw [if_pos (by exact high), if_neg (by exact armed)]
    have run := exec_forceReading running fits
    rw [taken] at run
    generalize r.getD 20000 = v at *
    have alive : (tripThrust (recordForce v (withForce v s))).running = true :=
      (running_tripThrust _).trans running
    have mode := (evalKeeps_settle false (tripThrust (recordForce v (withForce v s)))).tripped.2 (tripThrust_mode _)
    have outputs := thrustOutputs_at_end (lim := false) alive
    rw [mode] at outputs
    simp only [thrustOutputs, Prod.mk.injEq] at outputs
    obtain ⟨extend, retract, lock⟩ := outputs
    have base := (base_settle false _).trans (base_tripThrust (recordForce v (withForce v s)))
    refine ⟨_, run, mode, extend, retract, lock, ?_, fun room => ?_, fun first => ?_, base⟩
    · rw [trips_of_base base]
      exact mem_withPair_self _ _
    · exact trip_sent (by simpa [withForce] using room) false
    · exact settle_not_building false alive (addTrip_not_building (by exact first))
  · have taken : takeForce (r.getD 20000) (withForce (r.getD 20000) s) =
        decideRetract (setMode .hold (recordForce (r.getD 20000) (withForce (r.getD 20000) s))) := by
      unfold takeForce judgeForce
      rw [if_neg (by exact Nat.not_lt.2 low), if_pos (by simp [withForce, pressing, pressed])]
    have run := exec_forceReading running fits
    rw [taken] at run
    generalize r.getD 20000 = v at *
    have alive : (decideRetract (setMode .hold (recordForce v (withForce v s)))).running = true :=
      decideRetract_running running
    refine ⟨_, run, frame_setMode (frame_decideRetract (settle_frame false _)), fun ringOpen => ?_, fun absent mode => ?_⟩
    · have still : decideRetract (setMode .hold (recordForce v (withForce v s))) =
          setMode .hold (recordForce v (withForce v s)) :=
        (decideRetract_cases _).resolve_right fun ⟨building, _⟩ =>
          absurd (ringOpen.symm.trans building) (by simp)
      rw [still] at alive ⊢
      exact settle_follows_holds alive false ringOpen rfl
    · rcases settle_mode_of_absent (lim := false) alive (by rw [cfg_of_base (base_decideRetract _)]; exact absent)
        with same | ⟨_, hold | advance⟩
      · rcases decideRetract_mode_cases (setMode .hold (recordForce v (withForce v s))) with e | ⟨_, e | e⟩
        · simp [same, e] at mode
        · simp [same, e] at mode
        · simp [same, e] at mode
      · simp [hold] at mode
      · simp [advance] at mode
  · have taken : takeForce (r.getD 20000) (withForce (r.getD 20000) s) =
        recordForce (r.getD 20000) (withForce (r.getD 20000) s) := by
      rcases takeForce_cases (r.getD 20000) (withForce (r.getD 20000) s) with
        ⟨high, armed, _⟩ | ⟨low, pressing, pressed, _⟩ | ⟨_, _, e⟩
      · exact absurd harmless (by simpa [withForce] using ⟨high, armed⟩)
      · exact absurd unpressed (by simpa [withForce] using ⟨pressing, pressed⟩)
      · exact e
    have run := exec_forceReading running fits
    rw [taken] at run
    generalize r.getD 20000 = v at *
    have alive : (recordForce v (withForce v s)).running = true := running
    refine ⟨_, run, settle_frame false (recordForce v (withForce v s)), ?_, fun absent => ?_⟩
    · exact (evalKeeps_settle false (recordForce v (withForce v s))).tripped.symm
    · split
      · next follows =>
        refine settle_mode_of_holds alive ?_
        rcases settle_mode_of_absent (lim := false) alive absent with same | ⟨_, is⟩
        · rw [same]; exact follows
        · exact is
      · next other =>
        exact (settle_mode_of_absent alive absent).resolve_right fun ⟨was, _⟩ => other was

/-! ### The retracted-limit input -/

/-- The station with the retracted-limit input taken. -/
def withRetracted (b : Bool) (s : State) : State := { s with inputs := { s.inputs with retracted := b } }

/-- Settles O14: the input's effect is the change from RETRACTING to CLEAR, which no frame is about. -/
theorem retractedLimitTakesToClear : Obligations.RetractedLimitTakesToClear := by
  unfold Obligations.RetractedLimitTakesToClear
  intro active s running
  obtain ⟨e, run, frame, alive, base, mode⟩ : ∃ e, exec (.retractedLimitInput active) s = .next (settle false e)
      ∧ FrameOf (withRetracted active s) (settle false e) ∧ e.running = true
      ∧ baseOf e = baseOf (withRetracted active s)
      ∧ e.thrust.mode = (if active && s.thrust.mode = .retracting then .clear else s.thrust.mode) := by
    refine ⟨_, congrArg Host.Outcome.next (if_pos running), ?_⟩
    split
    · exact ⟨frame_setMode (settle_frame false _), running, rfl, rfl⟩
    · exact ⟨settle_frame false _, running, rfl, rfl⟩
  refine ⟨_, run, frame, fun absent => ?_, fun clear => ?_⟩
  · have still : e.thrust.mode ≠ .hold → e.thrust.mode ≠ .advance →
        (settle false e).thrust.mode = e.thrust.mode := fun hold advance =>
      (settle_mode_of_absent alive (by rw [cfg_of_base base]; exact absent)).resolve_right
        fun ⟨was, _⟩ => was.elim hold advance
    refine ⟨fun retracting => ?_, fun isClear => ?_⟩
    · have now : e.thrust.mode = if active then .clear else .retracting := by
        rw [mode, retracting]; cases active <;> rfl
      rw [still (by rw [now]; split <;> simp) (by rw [now]; split <;> simp), now]
    · have now : e.thrust.mode = .clear := by simp [mode, isClear]
      rw [still (by simp [now]) (by simp [now]), now]
  · have outputs := thrustOutputs_at_end (lim := false) alive
    rw [clear, inputs_of_base (base_settle false e), inputs_of_base base] at outputs
    simp only [thrustOutputs, Prod.mk.injEq] at outputs
    exact outputs.2.1

end Sys2Proof.Machine
end

section
/-! PROOF. TRIP and PACE notices (01 R5, R15), and the notice-period expiry: what it makes of peer view, silence count, listen
count and lifecycle, read off one explicit station (01 R4, R17, R19, R20; 12 R168), and the STATE it queues (10 R158). -/

namespace Sys2Proof.Machine

open Sys2Proof

/-! ### TRIP and PACE -/

theorem exec_tripArrival {src : Nat} {cause : TripCause} {s : State} (running : s.running = true)
    (foreign : src ≠ s.own)
    (taken : (src = 14 ∧ cause = .cabStop) ∨ (src ≠ 14 ∧ takenSource s src = true ∧ cause ≠ .cabStop)) :
    exec (.tripArrival src cause) s = .next (settle false (addTrip (src, cause) s)) := by
  change Host.Outcome.next (tripArrival src cause s) = _
  unfold tripArrival
  rw [if_neg foreign, if_pos running]
  rcases taken with ⟨rfl, rfl⟩ | ⟨other, taken, station⟩
  · rfl
  · rw [if_neg other, if_pos (by simp [taken, station])]

/-- What a pair that enters the trip memory leaves as the event ends (01 R15, 02 R33, 03 R46). -/
theorem addTrip_at_end {p : TripPair} {s : State} (running : s.running = true) :
    baseOf (settle false (addTrip p s)) = baseOf (withTrips (withPair p s.view.trips) s)
      ∧ p ∈ (settle false (addTrip p s)).view.trips ∧ (settle false (addTrip p s)).thrust.mode ≠ .advance
      ∧ (s.view.trips = [] → (settle false (addTrip p s)).build.state ≠ .building) := by
  have base := (base_settle false (addTrip p s)).trans (base_addTrip p s)
  have alive : (addTrip p s).running = true := (running_of_base (base_addTrip p s)).trans running
  have inView : p ∈ (settle false (addTrip p s)).view.trips := by
    rw [trips_of_base base]
    exact mem_withPair_self p _
  refine ⟨base, inView, fun advance => ?_, fun first => settle_not_building false alive (addTrip_not_building first)⟩
  obtain ⟨_, _, _, none, _⟩ :=
    (holdsFollow_at_end alive).free_of_advance ((running_settle _ _).trans alive) advance
  simp [none] at inView

/-- Settles O16: a TRIP that is taken is its pair in the trip memory, a PACE that is taken its pace field. -/
theorem tripAndPaceArrivalsKept : Obligations.TripAndPaceArrivalsKept := by
  unfold Obligations.TripAndPaceArrivalsKept
  refine ⟨fun src cause s running below small foreign station => ?_, fun s running small => ?_,
    fun src cause s foreign discarded => ?_, fun src p s running below small foreign => ?_,
    fun src p s foreign above => ?_⟩
  · exact ⟨_, exec_tripArrival running foreign (.inr ⟨by omega, by simp [takenSource, below, foreign], station⟩),
      addTrip_at_end running⟩
  · exact ⟨_, exec_tripArrival running (by omega) (.inl ⟨rfl, rfl⟩), addTrip_at_end running⟩
  · change Host.Outcome.next (tripArrival src cause s) = _
    unfold tripArrival
    rw [if_neg foreign]
    split
    · rcases discarded with ⟨other, untaken⟩ | ⟨rfl, other⟩
      · rw [if_neg other, if_neg]
        rcases untaken with above | cab
        · simp [takenSource, Nat.not_lt.2 above]
        · simp [cab]
      · rw [if_pos rfl, if_neg other]
    · rfl
  · have run : exec (.paceArrival src p) s = .next (settle true (storePace src p s)) := by
      change Host.Outcome.next (paceArrival src p s) = _
      unfold paceArrival
      rw [if_neg foreign, if_pos (by simp [running, takenSource, below, foreign])]
    exact ⟨_, run, settle_frame true (storePace src p s), settle_vlim (s := storePace src p s) running⟩
  · change Host.Outcome.next (paceArrival src p s) = _
    unfold paceArrival
    rw [if_neg foreign, if_neg (by simp [takenSource, Nat.not_lt.2 above])]

/-! ### The base after each part of an expiry -/

theorem base_standAside (s : State) : baseOf (standAside s) = baseOf s := by
  unfold standAside
  split
  · exact base_seqStep s
  · rfl

theorem base_marginWatch (s : State) : baseOf (marginWatch s) = baseOf s := by
  unfold marginWatch
  split
  · split
    · rfl
    · split
      · exact base_abortWithdrawal s
      · rfl
      · rfl
  · rfl

theorem base_retryAtExpiry (s : State) : baseOf (retryAtExpiry s) = baseOf s := by
  unfold retryAtExpiry
  split
  · rfl
  · rfl

theorem base_retryAtArrival (s : State) : baseOf (retryAtArrival s) = baseOf s := by
  unfold retryAtArrival
  split
  · split
    · rfl
    · rfl
  · rfl

/-- The station BLIND, its completion marker clear (01 R17); one that is BLIND already is left alone. -/
def blinded (s : State) : State :=
  if s.view.blind then s else { s with view := { s.view with blind := true, completion := false } }

theorem base_enterBlind (s : State) : baseOf (enterBlind s) = baseOf (blinded s) := by
  unfold enterBlind blinded
  split
  · rfl
  · exact base_suspendBuild _

/-- The station with the silence count of an aging expiry, BLIND where it has reached k (01 R17). -/
def silenced (s : State) : State :=
  if s.life = .ready then
    let s' := { s with view := { s.view with silence := silenceAfter s } }
    if s.view.silence < s.cfg.k && silenceAfter s = s.cfg.k then blinded s' else s'
  else s

theorem base_silenceEval (s : State) : baseOf (silenceEval s) = baseOf (silenced s) := by
  unfold silenceEval silenced
  dsimp only
  split
  · split
    · exact base_enterBlind _
    · rfl
  · rfl

/-- The station READY where both conditions are met, BLIND where a line fault holds (12 R168, 01 R17). -/
def joined (s : State) : State :=
  if s.life = .listening && s.listen = s.cfg.k + 1 && s.probe then
    (if s.bus.lineFault then blinded { s with life := .ready } else { s with life := .ready })
  else s

theorem base_joinLine (s : State) : baseOf (joinLine s) = baseOf (joined s) := by
  unfold joinLine joined becomeReady
  dsimp only
  split
  · split
    · exact base_enterBlind _
    · rfl
  · rfl

/-! ### Parts that read the base alone -/

theorem freshPeers_congr {s t : State} (own : t.own = s.own) (peers : t.view.peers = s.view.peers) :
    freshPeers t = freshPeers s := by
  unfold freshPeers freshBody entryOf
  rw [own, peers]

theorem freshPeers_of_base {s t : State} (h : baseOf t = baseOf s) : freshPeers t = freshPeers s :=
  freshPeers_congr (own_of_base h) (peers_of_base h)

theorem listen_of_base {s t : State} (h : baseOf t = baseOf s) : t.listen = s.listen := congrArg Base.listen h

theorem probe_of_base {s t : State} (h : baseOf t = baseOf s) : t.probe = s.probe := congrArg Base.probe h

theorem lineFault_of_base {s t : State} (h : baseOf t = baseOf s) : t.bus.lineFault = s.bus.lineFault :=
  congrArg (fun b => b.bus.lineFault) h

/-- Two stations of one base after the same change of the base. -/
theorem base_congr_conflictEval {s t : State} (h : baseOf t = baseOf s) :
    baseOf (conflictEval t) = baseOf (conflictEval s) := by
  have changed : ∀ x : State, baseOf (conflictEval x) =
      { baseOf x with
        view :=
          { (baseOf x).view with
            screwConflict := x.cfg.roles.screw && lowerScrew x
            erectorConflict := x.cfg.roles.erector && lowerErector x } } := fun _ => rfl
  rw [changed, changed, h, cfg_of_base h]
  unfold lowerScrew lowerErector
  rw [freshPeers_of_base h, own_of_base h]

theorem base_congr_countListen {s t : State} (h : baseOf t = baseOf s) :
    baseOf (countListen t) = baseOf (countListen s) := by
  have changed : ∀ x : State, baseOf (countListen x) =
      if x.life = .listening then { baseOf x with listen := min (x.listen + 1) (x.cfg.k + 1) } else baseOf x := by
    intro x
    unfold countListen
    split
    · rfl
    · rfl
  rw [changed, changed, h, life_of_base h, listen_of_base h, cfg_of_base h]

theorem base_congr_blinded {s t : State} (h : baseOf t = baseOf s) : baseOf (blinded t) = baseOf (blinded s) := by
  unfold blinded
  rw [blind_of_base h]
  split
  · exact h
  · exact congrArg (fun b => { b with view := { b.view with blind := true, completion := false } }) h

theorem base_congr_joined {s t : State} (h : baseOf t = baseOf s) : baseOf (joined t) = baseOf (joined s) := by
  have ready : baseOf { t with life := .ready } = baseOf { s with life := .ready } :=
    congrArg (fun b => { b with life := .ready }) h
  have joins : (t.life = .listening && t.listen = t.cfg.k + 1 && t.probe) =
      (s.life = .listening && s.listen = s.cfg.k + 1 && s.probe) := by
    rw [life_of_base h, listen_of_base h, cfg_of_base h, probe_of_base h]
  unfold joined
  rw [joins, lineFault_of_base h]
  split
  · split
    · exact base_congr_blinded ready
    · exact ready
  · exact h

/-! ### The notice-period expiry -/

/-- The station with the expiry taken from the clock and its entries aged (01 R4, log 3). -/
def aged (d : Nat) (s : State) : State :=
  ageView { s with clock := { s.clock with now := max s.clock.now d, noticeDue := some (d + s.cfg.tn) } }

/-- What an expiry makes of the base: entries aged, silence counted, conflicts judged, the listen count raised, LISTENING
ended (01 R4, R17, R19, R20; 12 R168). -/
def periodSeen (d : Nat) (s : State) : State :=
  joined (countListen (conflictEval (silenced (aged d s))))

theorem base_periodView (d : Nat) (s : State) : baseOf (periodView d s) = baseOf (periodSeen d s) := by
  have conflicts : baseOf (standAside (conflictEval (silenceEval (aged d s)))) =
      baseOf (conflictEval (silenced (aged d s))) :=
    (base_standAside _).trans (base_congr_conflictEval (base_silenceEval _))
  exact (base_joinLine _).trans (base_congr_joined (base_congr_countListen conflicts))

theorem base_periodDone (d : Nat) (s : State) : baseOf (periodDone d s) = baseOf (periodSeen d s) := by
  unfold periodDone
  rw [base_decideRetract, base_marginWatch, base_retryAtExpiry, base_periodView]

/-- The base as an expiry ends, its queue apart (10 R158). -/
theorem base_settle_periodDone (d : Nat) (s : State) :
    baseOf (settle true (periodDone d s)) = baseOf (periodSeen d s) :=
  (base_settle true _).trans (base_periodDone d s)

/-! ### The fields of `periodSeen` -/

/-- What every part of an expiry after the aging leaves alone; the completion marker can only be cleared. -/
structure SameSight (s t : State) : Prop where
  own : t.own = s.own
  cfg : t.cfg = s.cfg
  clock : t.clock = s.clock
  inputs : t.inputs = s.inputs
  bus : { t.bus with queue := [] } = { s.bus with queue := [] }
  probe : t.probe = s.probe
  peers : t.view.peers = s.view.peers
  trips : t.view.trips = s.view.trips
  heard : t.view.heard = s.view.heard
  completion : t.view.completion = true → s.view.completion = true

theorem SameSight.refl (s : State) : SameSight s s := ⟨rfl, rfl, rfl, rfl, rfl, rfl, rfl, rfl, rfl, id⟩

theorem SameSight.trans {s t u : State} (h : SameSight s t) (k : SameSight t u) : SameSight s u :=
  ⟨k.own.trans h.own, k.cfg.trans h.cfg, k.clock.trans h.clock, k.inputs.trans h.inputs, k.bus.trans h.bus,
    k.probe.trans h.probe, k.peers.trans h.peers, k.trips.trans h.trips, k.heard.trans h.heard,
    h.completion ∘ k.completion⟩

theorem SameSight.of_base {s t : State} (h : baseOf t = baseOf s) : SameSight s t :=
  ⟨own_of_base h, cfg_of_base h, clock_of_base h, inputs_of_base h, congrArg Base.bus h, probe_of_base h,
    peers_of_base h, trips_of_base h, congrArg (fun b => b.view.heard) h,
    (congrArg (fun b => b.view.completion) h).symm.trans⟩

theorem SameSight.freshPeers {s t : State} (h : SameSight s t) : freshPeers t = freshPeers s :=
  freshPeers_congr h.own h.peers

theorem sameSight_blinded (s : State) : SameSight s (blinded s) := by
  unfold blinded
  split
  · exact .refl s
  · exact ⟨rfl, rfl, rfl, rfl, rfl, rfl, rfl, rfl, rfl, fun h => by simp at h⟩

theorem sameSight_silenced (s : State) : SameSight s (silenced s) := by
  have counted : SameSight s { s with view := { s.view with silence := silenceAfter s } } :=
    ⟨rfl, rfl, rfl, rfl, rfl, rfl, rfl, rfl, rfl, id⟩
  unfold silenced
  dsimp only
  split
  · split
    · exact counted.trans (sameSight_blinded _)
    · exact counted
  · exact .refl s

theorem sameSight_conflictEval (s : State) : SameSight s (conflictEval s) :=
  ⟨rfl, rfl, rfl, rfl, rfl, rfl, rfl, rfl, rfl, id⟩

theorem sameSight_countListen (s : State) : SameSight s (countListen s) := by
  unfold countListen
  split
  · exact ⟨rfl, rfl, rfl, rfl, rfl, rfl, rfl, rfl, rfl, id⟩
  · exact .refl s

theorem sameSight_joined (s : State) : SameSight s (joined s) := by
  have ready : SameSight s { s with life := .ready } := ⟨rfl, rfl, rfl, rfl, rfl, rfl, rfl, rfl, rfl, id⟩
  unfold joined
  split
  · split
    · exact ready.trans (sameSight_blinded _)
    · exact ready
  · exact .refl s

theorem sameSight_periodSeen (d : Nat) (s : State) : SameSight (aged d s) (periodSeen d s) :=
  ((sameSight_silenced _).trans (sameSight_conflictEval _)).trans
    ((sameSight_countListen _).trans (sameSight_joined _))

theorem blinded_blind (s : State) : (blinded s).view.blind = true := by
  unfold blinded
  split
  · next blind => exact blind
  · rfl

/-- Of silence, conflicts and listen count, becoming BLIND changes nothing. -/
theorem blinded_keeps (s : State) :
    (blinded s).view.silence = s.view.silence ∧ (blinded s).view.screwConflict = s.view.screwConflict
      ∧ (blinded s).view.erectorConflict = s.view.erectorConflict ∧ (blinded s).life = s.life
      ∧ (blinded s).listen = s.listen := by
  unfold blinded
  split <;> exact ⟨rfl, rfl, rfl, rfl, rfl⟩

theorem joined_keeps (s : State) :
    (joined s).view.silence = s.view.silence ∧ (joined s).view.screwConflict = s.view.screwConflict
      ∧ (joined s).view.erectorConflict = s.view.erectorConflict ∧ (joined s).listen = s.listen := by
  unfold joined
  split
  · split
    · obtain ⟨silence, screw, erector, _, listen⟩ := blinded_keeps { s with life := .ready }
      exact ⟨silence, screw, erector, listen⟩
    · exact ⟨rfl, rfl, rfl, rfl⟩
  · exact ⟨rfl, rfl, rfl, rfl⟩

theorem joined_ready {s : State} (ready : s.life = .ready) : joined s = s := by simp [joined, ready]

theorem countListen_ready {s : State} (ready : s.life = .ready) : countListen s = s := by simp [countListen, ready]

theorem countListen_view (s : State) : (countListen s).view = s.view := by unfold countListen; split <;> rfl

theorem silenced_life (s : State) : (silenced s).life = s.life := by
  unfold silenced
  dsimp only
  split
  · split
    · exact (blinded_keeps _).2.2.2.1
    · rfl
  · rfl

theorem silenced_listen (s : State) : (silenced s).listen = s.listen := by
  unfold silenced
  dsimp only
  split
  · split
    · exact (blinded_keeps _).2.2.2.2
    · rfl
  · rfl

theorem silenced_silence (s : State) :
    (silenced s).view.silence = if s.life = .ready then silenceAfter s else s.view.silence := by
  unfold silenced
  dsimp only
  split
  · split
    · exact (blinded_keeps _).1
    · rfl
  · rfl

theorem silenced_blind {s : State} (ready : s.life = .ready) :
    (silenced s).view.blind =
      (s.view.blind || decide (s.view.silence < s.cfg.k ∧ silenceAfter s = s.cfg.k)) := by
  unfold silenced
  rw [if_pos ready]
  dsimp only
  split
  · next reached =>
    rw [blinded_blind]
    simp only [Bool.and_eq_true, decide_eq_true_eq] at reached
    simp [reached]
  · next short =>
    simp only [Bool.and_eq_true, decide_eq_true_eq] at short
    simp [short]

/-- The silence count of an aging expiry, in the terms of the statements (01 R17). -/
theorem silenceAfter_eq (s : State) :
    silenceAfter s =
      if s.view.heard = true ∧ freshPeers s = [] then min (s.view.silence + 1) s.cfg.k else 0 := by
  unfold silenceAfter
  cases heard : s.view.heard
  · simp
  · simp

theorem lowerScrew_eq (s : State) : lowerScrew s = lowerClaims Roles.screw s := rfl

theorem lowerErector_eq (s : State) : lowerErector s = lowerClaims Roles.erector s := rfl

theorem lowerClaims_of_sight {s t : State} (h : SameSight s t) (role : Roles → Bool) :
    lowerClaims role t = lowerClaims role s := by
  unfold lowerClaims
  rw [h.freshPeers, h.own]

theorem lowerClaims_of_base {s t : State} (h : baseOf t = baseOf s) (role : Roles → Bool) :
    lowerClaims role t = lowerClaims role s := by
  unfold lowerClaims
  rw [freshPeers_of_base h, own_of_base h]

/-- The conflicts judged on the aged view (01 R19, R20). -/
theorem periodSeen_conflicts (d : Nat) (s : State) :
    (periodSeen d s).view.screwConflict = (s.cfg.roles.screw && lowerClaims Roles.screw (periodSeen d s))
      ∧ (periodSeen d s).view.erectorConflict =
          (s.cfg.roles.erector && lowerClaims Roles.erector (periodSeen d s)) := by
  have judged := sameSight_silenced (aged d s)
  have after : SameSight (silenced (aged d s)) (periodSeen d s) :=
    (sameSight_conflictEval _).trans ((sameSight_countListen _).trans (sameSight_joined _))
  obtain ⟨_, screw, erector, _⟩ := joined_keeps (countListen (conflictEval (silenced (aged d s))))
  refine ⟨screw.trans ?_, erector.trans ?_⟩
  · rw [countListen_view, lowerClaims_of_sight after, ← lowerScrew_eq]
    exact congrArg (fun c => c.roles.screw && lowerScrew (silenced (aged d s))) judged.cfg
  · rw [countListen_view, lowerClaims_of_sight after, ← lowerErector_eq]
    exact congrArg (fun c => c.roles.erector && lowerErector (silenced (aged d s))) judged.cfg

theorem periodSeen_silence (d : Nat) (s : State) :
    (periodSeen d s).view.silence = if s.life = .ready then silenceAfter (aged d s) else s.view.silence := by
  unfold periodSeen
  rw [(joined_keeps _).1, countListen_view]
  exact silenced_silence (aged d s)

theorem periodSeen_ready (d : Nat) {s : State} (ready : s.life = .ready) :
    periodSeen d s = conflictEval (silenced (aged d s)) := by
  have same : (conflictEval (silenced (aged d s))).life = .ready := (silenced_life (aged d s)).trans ready
  unfold periodSeen
  rw [countListen_ready same, joined_ready same]

theorem periodSeen_listen (d : Nat) {s : State} (listening : s.life = .listening) :
    (periodSeen d s).listen = min (s.listen + 1) (s.cfg.k + 1) := by
  have same : (conflictEval (silenced (aged d s))).life = .listening := (silenced_life (aged d s)).trans listening
  unfold periodSeen
  rw [(joined_keeps _).2.2.2]
  unfold countListen
  rw [if_pos same]
  have cfg := (sameSight_silenced (aged d s)).cfg
  have listen := silenced_listen (aged d s)
  change min ((silenced (aged d s)).listen + 1) ((silenced (aged d s)).cfg.k + 1) = _
  rw [cfg, listen]
  rfl

end Sys2Proof.Machine
end

section
/-! PROOF. The notice-period expiry as a whole: the STATE it queues and the renewal mark (10 R158), the expiry that makes a
station BLIND (01 R17), the one that ends a retry wait (03 R54), and the one that ends LISTENING (12 R168). -/

namespace Sys2Proof.Machine

open Sys2Proof

/-! ### The STATE that is queued -/

/-- A STATE on offer. -/
def offeredState (x : QueueItem) : Bool := decide (x.notice = .state) && x.offering

theorem any_offeredState_insertNotice {n : TxNotice} (q : List QueueItem) :
    (insertNotice n q).any offeredState = q.any offeredState := by
  induction q with
  | nil => simp [insertNotice, offeredState]
  | cons x xs ih =>
    unfold insertNotice
    split
    · simp [ih]
    · simp [offeredState]

theorem any_offeredState_eraseP {p : QueueItem → Bool} (waits : ∀ x, p x = true → x.offering = false)
    (q : List QueueItem) : (q.eraseP p).any offeredState = q.any offeredState := by
  induction q with
  | nil => rfl
  | cons x xs ih =>
    by_cases hit : p x = true
    · rw [List.eraseP_cons_of_pos hit]
      simp [offeredState, waits x hit]
    · rw [List.eraseP_cons_of_neg hit]
      simp [ih]

theorem any_offeredState_queueAfter (n : TxNotice) (q : List QueueItem) :
    (queueAfter n q).any offeredState = q.any offeredState := by
  have state : ∀ x, waitingState x = true → x.offering = false := fun x h => by
    simp only [waitingState, Bool.and_eq_true, Bool.not_eq_true'] at h; exact h.2
  have classOne : ∀ x, waitingClassOne x = true → x.offering = false := fun x h => by
    simp only [waitingClassOne, Bool.and_eq_true, Bool.not_eq_true'] at h; exact h.2
  unfold queueAfter
  split
  · exact any_offeredState_insertNotice q
  · split
    · rw [any_offeredState_insertNotice, any_offeredState_eraseP state]
    · split
      · rw [any_offeredState_insertNotice, dropNewest, List.any_reverse, any_offeredState_eraseP classOne,
          List.any_reverse]
      · rfl

/-- Evaluations queue notices alone, so a STATE on offer stays so and no other comes to be. -/
theorem Change.offeredState {s t : State} (h : Change s .eval t) :
    t.bus.queue.any offeredState = s.bus.queue.any offeredState := by
  cases h
  case enqueue n contents => exact any_offeredState_queueAfter n _
  case screwState => obtain ⟨u, e⟩ := setScrew_eq (screwChoice s) s; rw [e]
  all_goals rfl

theorem Changes.offeredState {s t : State} (h : Changes .eval s t) :
    t.bus.queue.any offeredState = s.bus.queue.any offeredState := by
  induction h with
  | refl => rfl
  | tail _ change ih => exact change.offeredState.trans ih

theorem enterBlind_bus (s : State) : (enterBlind s).bus = s.bus := by
  unfold enterBlind
  split
  · rfl
  · exact suspendBuild_bus _

theorem silenceEval_bus (s : State) : (silenceEval s).bus = s.bus := by
  unfold silenceEval
  dsimp only
  split
  · split
    · exact enterBlind_bus _
    · rfl
  · rfl

theorem countListen_bus (s : State) : (countListen s).bus = s.bus := by unfold countListen; split <;> rfl

theorem joinLine_bus (s : State) : (joinLine s).bus = s.bus := by
  unfold joinLine becomeReady
  dsimp only
  split
  · split
    · exact enterBlind_bus _
    · rfl
  · rfl

/-- Nothing in an expiry takes a STATE off its offer, or puts one on offer. -/
theorem offeredState_at_expiry (d : Nat) (s : State) :
    (settle true (periodDone d s)).bus.queue.any offeredState = s.bus.queue.any offeredState := by
  have stood : Changes .eval (conflictEval (silenceEval (aged d s)))
      (standAside (conflictEval (silenceEval (aged d s)))) := by
    unfold standAside
    split
    · exact changes_seqStep fun _ => rfl
    · exact .refl
  have ended : Changes .eval (periodView d s) (settle true (periodDone d s)) :=
    ((changes_retryAtExpiry _).trans (changes_marginWatch _)).trans
      ((changes_decideRetract _).trans (changes_settle true _))
  have viewed : (periodView d s).bus = (standAside (conflictEval (silenceEval (aged d s)))).bus :=
    (joinLine_bus _).trans (countListen_bus _)
  have before : (conflictEval (silenceEval (aged d s))).bus = s.bus := silenceEval_bus (aged d s)
  rw [ended.offeredState, viewed, stood.offeredState, before]

/-- A STATE stands in the queue after `queueState`, unless the queue is full (10 R158). -/
theorem queueState_sent (s : State) :
    (∃ x ∈ (queueState s).bus.queue, x.notice = .state) ∨ 6 ≤ (queueState s).bus.queue.length := by
  unfold queueState
  split
  · next waits =>
    obtain ⟨x, held, waits⟩ := List.any_eq_true.1 waits
    simp only [waitingState, Bool.and_eq_true, decide_eq_true_eq] at waits
    exact .inl ⟨x, held, waits.1⟩
  · split
    · next offered =>
      obtain ⟨x, held, state⟩ := List.any_eq_true.1 offered
      exact .inl ⟨x, held, by simpa using state⟩
    · split
      · exact .inl ⟨_, mem_insertNotice.2 (.inl rfl), rfl⟩
      · next full => exact .inr (Nat.not_lt.1 full)

/-- The renewal mark is set exactly when the one STATE of the queue is on offer (10 R158). -/
theorem queueState_renewal {s : State} (order : QueueInOrder s) :
    (queueState s).bus.renewal = (s.bus.renewal || s.bus.queue.any offeredState) := by
  have single := ((queueInOrder_iff s).1 order).single
  unfold queueState
  split
  · next waits =>
    obtain ⟨x, heldX, waits⟩ := List.any_eq_true.1 waits
    simp only [waitingState, Bool.and_eq_true, decide_eq_true_eq, Bool.not_eq_true'] at waits
    have none : s.bus.queue.any offeredState = false := by
      by_contra offered
      obtain ⟨y, heldY, offered⟩ := List.any_eq_true.1 (by simpa using offered)
      simp only [offeredState, Bool.and_eq_true, decide_eq_true_eq] at offered
      have inX : x ∈ states s.bus.queue := List.mem_filter.2 ⟨heldX, by simp [waits.1]⟩
      have inY : y ∈ states s.bus.queue := List.mem_filter.2 ⟨heldY, by simp [offered.1]⟩
      obtain rfl : x = y := by
        match held : states s.bus.queue with
        | [] => simp [held] at inX
        | [z] => simp only [held, List.mem_singleton] at inX inY; rw [inX, inY]
        | a :: b :: rest => simp [held] at single
      simp [waits.2] at offered
    rw [none, Bool.or_false]
  · next noWait =>
    split
    · next some_ =>
      obtain ⟨x, held, state⟩ := List.any_eq_true.1 some_
      have offered : s.bus.queue.any offeredState = true := by
        refine List.any_eq_true.2 ⟨x, held, ?_⟩
        have busy : x.offering = true := by
          by_contra waits
          have is : x.notice = .state := by simpa using state
          exact noWait (List.any_eq_true.2 ⟨x, held, by simp [waitingState, is, waits]⟩)
        simpa [offeredState, busy] using state
      simp [offered]
    · next none =>
      have noOffer : s.bus.queue.any offeredState = false := by
        simp only [List.any_eq_true, not_exists, not_and] at none
        simp only [List.any_eq_false, offeredState, Bool.and_eq_true, not_and]
        exact fun x held state => absurd state (none x held)
      rw [noOffer, Bool.or_false]
      split <;> rfl

/-! ### The expiry as a whole -/

theorem exec_noticePeriodExpiry {d : Nat} {s : State} (due : s.clock.noticeDue = some d) :
    exec .noticePeriodExpiry s = .next (queueState (settle true (periodDone d s))) :=
  congrArg Host.Outcome.next (noticePeriodExpiry_due due)

/-- View, clock and inputs as an expiry ends are those of the aged station. -/
theorem sameSight_expiry (d : Nat) (s : State) : SameSight (aged d s) (settle true (periodDone d s)) :=
  (sameSight_periodSeen d s).trans (.of_base (base_settle_periodDone d s))

theorem aged_peers (d : Nat) (s : State) : (aged d s).view.peers = s.view.peers.map (ageEntry s.cfg.k) := rfl

/-- Settles O17: view, clock and counts are those of `periodSeen`, and the STATE is queued last. -/
theorem noticePeriodAgesAndReports : Obligations.NoticePeriodAgesAndReports := by
  unfold Obligations.NoticePeriodAgesAndReports
  refine ⟨fun d s running due => ?_, fun s idle => congrArg Host.Outcome.next (noticePeriodExpiry_idle idle)⟩
  have base := base_settle_periodDone d s
  have sight := sameSight_expiry d s
  have run := exec_noticePeriodExpiry due
  have offered := offeredState_at_expiry d s
  have order : QueueInOrder s → QueueInOrder (settle true (periodDone d s)) := fun order =>
    (changes_settle true (periodDone d s)).keep Change.keeps_queueInOrder
      ((changes_periodDone due).keep Change.keeps_queueInOrder order)
  generalize settle true (periodDone d s) = e at *
  obtain ⟨b, ends⟩ := queueState_eq e
  have sent := queueState_sent e
  have mark : e.bus.renewal = s.bus.renewal := by
    have same := congrArg Bus.renewal sight.bus
    exact same
  obtain ⟨screw, erector⟩ := periodSeen_conflicts d s
  have counted := silenceAfter_eq (aged d s)
  rw [← sight.freshPeers] at counted
  have seen : (queueState e).view = e.view ∧ freshPeers (queueState e) = freshPeers e
      ∧ (queueState e).clock = e.clock ∧ (queueState e).listen = e.listen
      ∧ ∀ role, lowerClaims role (queueState e) = lowerClaims role e := by
    rw [ends]
    exact ⟨rfl, rfl, rfl, rfl, fun _ => rfl⟩
  obtain ⟨view, fresh, clock, listen, claims⟩ := seen
  refine ⟨_, run, ?_⟩
  beta_reduce
  rw [view, fresh, clock, listen, claims, claims]
  refine ⟨?_, sight.trips, sight.heard, sight.completion, sent, sight.clock, fun ready low => ?_, fun ready => ?_,
    fun listening => ?_, fun inOrder => ?_, fun listening => ?_, ?_, ?_⟩
  · rw [sight.peers, aged_peers]
    refine congrArg (fun f => s.view.peers.map f) (funext fun entry => ?_)
    unfold ageEntry
    split <;> simp [*]
  · rw [blind_of_base base, periodSeen_ready d ready]
    change (silenced (aged d s)).view.blind = _
    rw [silenced_blind (s := aged d s) ready, counted]
    change (s.view.blind || decide (s.view.silence < s.cfg.k
      ∧ (if s.view.heard = true ∧ freshPeers e = [] then min (s.view.silence + 1) s.cfg.k else 0) = s.cfg.k)) = _
    congr 1
    split
    · next alone =>
      rw [alone.1, alone.2]
      simp only [Bool.true_and, List.isEmpty_nil, Bool.and_true, decide_eq_decide]
      omega
    · next heardBy =>
      have silent : (s.view.heard && (freshPeers e).isEmpty) = false := by simpa using heardBy
      rw [Bool.and_right_comm, silent, Bool.false_and, decide_eq_false_iff_not]
      omega
  · refine (congrArg (fun b => b.view.silence) base).trans ((periodSeen_silence d s).trans ?_)
    rw [if_pos ready, counted]
    rfl
  · refine (congrArg (fun b => b.view.silence) base).trans ((periodSeen_silence d s).trans ?_)
    rw [if_neg (by simp [listening])]
  · rw [queueState_renewal (order inOrder), offered, mark]
    rfl
  · exact (listen_of_base base).trans (periodSeen_listen d listening)
  · refine (congrArg (fun b => b.view.screwConflict) base).trans (screw.trans ?_)
    rw [← lowerClaims_of_base base]
  · refine (congrArg (fun b => b.view.erectorConflict) base).trans (erector.trans ?_)
    rw [← lowerClaims_of_base base]

end Sys2Proof.Machine
end

section
/-! PROOF. The expiries that end something: the silence that makes a station BLIND (01 R17), the retry wait (03 R54), and
LISTENING, which a completion can end too (12 R168). -/

namespace Sys2Proof.Machine

open Sys2Proof

/-! ### BLIND by silence -/

/-- No evaluation begins or resumes a build. -/
theorem Changes.not_building {s t : State} (h : Changes .eval s t) (idle : s.build.state ≠ .building) :
    t.build.state ≠ .building := by
  induction h with
  | refl => exact idle
  | tail _ change ih =>
    cases change
    case screwState => obtain ⟨u, e⟩ := setScrew_eq (screwChoice _) _; rw [e]; exact ih
    case suspend => simp
    case openUnits => simp
    all_goals exact ih

theorem changes_standAside_eval (s : State) : Changes .eval s (standAside s) := by
  unfold standAside
  split
  · exact changes_seqStep fun _ => rfl
  · exact .refl

/-- The part of an expiry after the silence count, at a READY station, is one of evaluations. -/
theorem changes_periodDone_ready (d : Nat) {s : State} (ready : s.life = .ready) :
    Changes .eval (conflictEval (silenceEval (aged d s))) (periodDone d s) := by
  have stays : (standAside (conflictEval (silenceEval (aged d s)))).life = .ready := by
    have seen : baseOf (standAside (conflictEval (silenceEval (aged d s)))) =
        baseOf (conflictEval (silenced (aged d s))) :=
      (base_standAside _).trans (base_congr_conflictEval (base_silenceEval _))
    exact (life_of_base seen).trans ((silenced_life (aged d s)).trans ready)
  have viewed : periodView d s = standAside (conflictEval (silenceEval (aged d s))) := by
    change joinLine (countListen (standAside (conflictEval (silenceEval (aged d s))))) = _
    rw [countListen_ready stays, joinLine_idle (by simp [stays])]
  unfold periodDone
  rw [viewed]
  exact (changes_standAside_eval _).trans
    ((changes_retryAtExpiry _).trans ((changes_marginWatch _).trans (changes_decideRetract _)))

theorem exec_silenceCountReachingK {d : Nat} {s : State} (ready : s.life = .ready) (due : s.clock.noticeDue = some d)
    (heard : s.view.heard = true) (next : s.view.silence + 1 = s.cfg.k) (alone : freshPeers (ageView s) = []) :
    exec .silenceCountReachingK s = .next (queueState (settle true (periodDone d s))) := by
  have counted : silenceAfter (ageView s) = s.cfg.k := by
    rw [silenceAfter_eq, if_pos ⟨heard, alone⟩]
    change min (s.view.silence + 1) s.cfg.k = s.cfg.k
    omega
  have ends : silenceEndsNext s = true := by
    simp only [silenceEndsNext, due, ready, counted]
    simp only [Option.isSome_some, decide_true, Bool.and_true, Bool.true_and, decide_eq_true_eq]
    omega
  change Host.Outcome.next (silenceCountReachingK s) = _
  unfold silenceCountReachingK
  rw [if_pos ends, noticePeriodExpiry_due due]

/-- The silence that reaches k: BLIND, the completion marker clear, no build going on (01 R17). -/
theorem silenceEval_reached {s : State} (ready : s.life = .ready) (low : s.view.silence < s.cfg.k)
    (reached : silenceAfter s = s.cfg.k) (seeing : s.view.blind = false) :
    silenceEval s =
      suspendBuild
        { s with view := { s.view with silence := silenceAfter s, blind := true, completion := false } } := by
  unfold silenceEval enterBlind
  rw [if_pos ready]
  dsimp only
  rw [if_pos (by simp [low, reached]), seeing]
  rfl

theorem blind_at_expiry {d : Nat} {s : State} (ready : s.life = .ready) (heard : s.view.heard = true)
    (seeing : s.view.blind = false) (next : s.view.silence + 1 = s.cfg.k) (alone : freshPeers (ageView s) = []) :
    (periodSeen d s).view.blind = true ∧ (periodSeen d s).view.completion = false
      ∧ (periodSeen d s).view.silence = s.cfg.k ∧ (periodDone d s).build.state ≠ .building := by
  have counted : silenceAfter (aged d s) = s.cfg.k := by
    rw [silenceAfter_eq, if_pos ⟨heard, alone⟩]
    change min (s.view.silence + 1) s.cfg.k = s.cfg.k
    omega
  have low : s.view.silence < s.cfg.k := by omega
  have eval := silenceEval_reached (s := aged d s) ready low counted seeing
  have seen := base_silenceEval (aged d s)
  rw [eval, base_suspendBuild] at seen
  rw [periodSeen_ready d ready]
  refine ⟨(blind_of_base seen).symm, ?_, ?_, ?_⟩
  · exact (congrArg (fun b => b.view.completion) seen).symm
  · exact (congrArg (fun b => b.view.silence) seen).symm.trans counted
  · refine (changes_periodDone_ready d ready).not_building ?_
    rw [eval]
    exact suspendBuild_not_building _

/-! ### The end of a retry wait -/

/-- The station at an expiry that finds a peer FRESH, at a READY station without the ERECTOR role: aged, its silence
count 0, its SCREW conflict judged. -/
def heardAtExpiry (d : Nat) (s : State) : State :=
  conflictEval { aged d s with view := { (aged d s).view with silence := 0 } }

theorem periodView_heard (d : Nat) {s : State} (ready : s.life = .ready) (absent : s.cfg.roles.erector = false)
    (company : freshPeers (ageView s) ≠ []) : periodView d s = heardAtExpiry d s := by
  have counted : silenceAfter (aged d s) = 0 := by
    rw [silenceAfter_eq, if_neg fun h => company h.2]
  have eval : silenceEval (aged d s) = { aged d s with view := { (aged d s).view with silence := 0 } } := by
    unfold silenceEval
    rw [if_pos (by exact ready), counted]
    dsimp only
    rw [if_neg]
    simp only [Bool.and_eq_true, decide_eq_true_eq, not_and]
    omega
  have aside : standAside (heardAtExpiry d s) = heardAtExpiry d s := by
    unfold standAside
    refine if_neg ?_
    have free : (heardAtExpiry d s).view.erectorConflict = false := by
      change (s.cfg.roles.erector && _) = false
      rw [absent, Bool.false_and]
    simp [free]
  change joinLine (countListen (standAside (conflictEval (silenceEval (aged d s))))) = _
  rw [eval]
  change joinLine (countListen (standAside (heardAtExpiry d s))) = _
  have stays : (heardAtExpiry d s).life = .ready := ready
  rw [aside, countListen_ready stays, joinLine_idle (by simp [stays])]

/-- A margin that is met keeps a withdrawal: only MARGIN LOW is lowered (03 R53). -/
theorem marginWatch_met {s : State} (met : marginMet s = true) :
    marginWatch s = s ∨ marginWatch s = { s with build := { s.build with marginLow := false } } := by
  unfold marginWatch
  split
  · exact .inr rfl
  · exact .inl rfl

theorem plan_decideRetract (s : State) : planOf (decideRetract s) = planOf s := by
  rcases decideRetract_cases s with e | ⟨_, _, _, _, _, _, _, _, e⟩
  · rw [e]
  · rw [e]; exact plan_setMode _ s

/-- The station as its retry wait has ended, before the margin watch (03 R54). -/
def waitEnded (d : Nat) (s : State) : State :=
  { heardAtExpiry d s with build := { s.build with retry := none } }

theorem retryAtExpiry_ends {d c : Nat} {s : State} (wait : s.build.retry = some c) (due : s.cfg.k ≤ c + 1)
    (met : marginMet (ageView s) = true) : retryAtExpiry (heardAtExpiry d s) = waitEnded d s := by
  have same : marginMet (heardAtExpiry d s) = marginMet (ageView s) := rfl
  have still : (heardAtExpiry d s).build.retry = some c := wait
  have k : (heardAtExpiry d s).cfg.k ≤ c + 1 := due
  unfold retryAtExpiry
  rw [still]
  dsimp only
  rw [same, met, if_pos rfl, if_pos k]
  rfl

theorem exec_retryWaitEnd {d c : Nat} {s : State} (ready : s.life = .ready) (due : s.clock.noticeDue = some d)
    (absent : s.cfg.roles.erector = false) (wait : s.build.retry = some c) (last : s.cfg.k ≤ c + 1)
    (met : marginMet (ageView s) = true) (company : freshPeers (ageView s) ≠ []) :
    exec .retryWaitEnd s =
      .next (queueState (settle true (decideRetract (marginWatch (waitEnded d s))))) := by
  have viewed := periodView_heard d ready absent company
  have still : (heardAtExpiry d s).build.retry = some c := wait
  have ends : retryEndsNext s = true := by
    unfold retryEndsNext
    rw [due]
    dsimp only
    rw [viewed, still]
    dsimp only
    have same : marginMet (heardAtExpiry d s) = true := met
    have k : (heardAtExpiry d s).cfg.k ≤ c + 1 := last
    rw [same, Bool.true_and]
    exact decide_eq_true k
  change Host.Outcome.next (retryWaitEnd s) = _
  unfold retryWaitEnd
  rw [if_pos ends, noticePeriodExpiry_due due]
  unfold periodDone
  rw [viewed, retryAtExpiry_ends wait last met]

/-- Settles O18: each row is the expiry, its cause the one condition that the expiry then meets. -/
theorem silenceAndRetryWaitEnd : Obligations.SilenceAndRetryWaitEnd := by
  unfold Obligations.SilenceAndRetryWaitEnd
  refine ⟨fun d s ready due heard seeing next alone => ?_,
    fun d c s ready due absent building wait last met company untripped seeing => ?_⟩
  · have run := exec_silenceCountReachingK ready due heard next alone
    have base := base_settle_periodDone d s
    have sight := sameSight_expiry d s
    obtain ⟨blind, completion, silence, still⟩ := blind_at_expiry (d := d) ready heard seeing next alone
    have alive : (periodDone d s).running = true :=
      (changes_periodDone due).fixed.running.trans (running_of_ready ready)
    have idle := settle_not_building true alive still
    have hold : (settle true (periodDone d s)).thrust.mode ≠ .advance := fun advance => by
      obtain ⟨_, _, _, _, free⟩ :=
        (holdsFollow_at_end alive).free_of_advance ((running_settle _ _).trans alive) advance
      rw [blind_of_base base, blind] at free
      exact absurd free (by simp)
    generalize settle true (periodDone d s) = e at *
    obtain ⟨b, ends⟩ := queueState_eq e
    refine ⟨_, run, ?_⟩
    rw [ends]
    exact ⟨(blind_of_base base).trans blind, (congrArg (fun b => b.view.completion) base).trans completion,
      (congrArg (fun b => b.view.silence) base).trans silence, hold, idle, sight.peers, sight.trips, sight.clock⟩
  · have run := exec_retryWaitEnd (d := d) ready due absent wait last met company
    have metThere : marginMet (waitEnded d s) = true := met
    have watched := marginWatch_met metThere
    have frame := frame_decideRetract (settle_frame true (decideRetract (marginWatch (waitEnded d s))))
    have base : baseOf (settle true (decideRetract (marginWatch (waitEnded d s)))) = baseOf (waitEnded d s) := by
      rw [base_settle, base_decideRetract, base_marginWatch]
    have plan : planOf (settle true (decideRetract (marginWatch (waitEnded d s)))) = planOf (waitEnded d s) := by
      have there : (marginWatch (waitEnded d s)).cfg.roles.erector = false := by
        rw [cfg_of_base (base_marginWatch _)]; exact absent
      rw [(frame.2.2 there).1]
      rcases watched with e | e <;> rw [e]
      rfl
    have alive : (decideRetract (marginWatch (waitEnded d s))).running = true :=
      decideRetract_running ((running_of_base (base_marginWatch _)).trans (running_of_ready ready))
    have mode : s.thrust.mode = .hold → ownCovered s = true → currentEntryState s = some .pending →
        (settle true (decideRetract (marginWatch (waitEnded d s)))).thrust.mode =
          if s.inputs.retracted then .clear else .retracting := by
      intro hold covered pending
      have unwatched : marginWatch (waitEnded d s) = waitEnded d s := by
        have out : withdrawn (waitEnded d s) = false := by
          change withdrawn s = false
          simp [withdrawn, hold]
        unfold marginWatch
        rw [out]
        rfl
      have decided := decideRetract_mode (s := waitEnded d s) building pending hold untripped seeing rfl
      have there : ownCovered (waitEnded d s) = true := covered
      rw [there, metThere] at decided
      rw [unwatched] at alive ⊢
      have there : (decideRetract (waitEnded d s)).cfg.roles.erector = false := by
        rw [cfg_of_base (base_decideRetract _)]; exact absent
      have build : (decideRetract (waitEnded d s)).build.state ≠ .ringOpen := by
        have same : (planOf (decideRetract (waitEnded d s))).state = (planOf (waitEnded d s)).state := by
          rw [plan_decideRetract]
        exact fun ringOpen => absurd ((same.symm.trans ringOpen).symm.trans building) (by simp)
      have advance : (decideRetract (waitEnded d s)).thrust.mode ≠ .advance :=
        decideRetract_not_advance fun advance => absurd (hold.symm.trans advance) (by simp)
      rw [settle_mode_in_build alive true there build advance, decided]
      rfl
    generalize settle true (decideRetract (marginWatch (waitEnded d s))) = e at *
    obtain ⟨b, ends⟩ := queueState_eq e
    refine ⟨_, run, ?_⟩
    rw [ends]
    have retry : (planOf e).retry = none := by rw [plan]; rfl
    have entries : (planOf e).entries = s.build.entries := by rw [plan]; rfl
    have state : (planOf e).state = .building := by rw [plan]; exact building
    have peers : e.view.peers = (waitEnded d s).view.peers := peers_of_base base
    have clock : e.clock = (waitEnded d s).clock := clock_of_base base
    exact ⟨retry, peers, entries, state, clock, mode⟩

/-! ### The end of LISTENING -/

/-- The station that an ended LISTENING makes READY (12 R168, 01 R17). -/
theorem joined_joins {s : State} (listening : s.life = .listening) (count : s.listen = s.cfg.k + 1)
    (probed : s.probe = true) :
    joined s = if s.bus.lineFault then blinded { s with life := .ready } else { s with life := .ready } := by
  simp [joined, listening, count, probed]

/-- LISTENING ends in READY, BLIND where it was or where a line fault holds. -/
theorem joined_at_end {s : State} (listening : s.life = .listening) (count : s.listen = s.cfg.k + 1)
    (probed : s.probe = true) :
    (joined s).life = .ready ∧ (joined s).view.blind = (s.view.blind || s.bus.lineFault)
      ∧ (s.view.blind = false → s.bus.lineFault = true → (joined s).view.completion = false) := by
  rw [joined_joins listening count probed]
  split
  · next fault =>
    refine ⟨(blinded_keeps _).2.2.2.1, by rw [blinded_blind, fault, Bool.or_true], fun seeing _ => ?_⟩
    unfold blinded
    rw [if_neg (by simp [seeing])]
  · next sound =>
    have none : s.bus.lineFault = false := by simpa using sound
    exact ⟨rfl, by rw [none, Bool.or_false], fun _ fault => by simp [none] at fault⟩

/-- The status output of a station as an event ends (12 section 12.5). -/
theorem status_at_end {lim : Bool} {e : State} (running : e.running = true)
    (ready : (settle lim e).life = .ready) : (settle lim e).out.status = true := by
  have follows := outputsFollow_at_end (lim := lim) running
  unfold OutputsFollow at follows
  rw [if_pos ((running_settle lim e).trans running)] at follows
  obtain ⟨_, _, _, _, _, _, _, _, _, _, _, _, _, status⟩ := follows
  rw [status, ready]
  rfl

/-- The hold reason BLIND as an event ends (02 R33). -/
theorem holds_blind_at_end {lim : Bool} {e : State} (running : e.running = true) :
    (settle lim e).thrust.holds.blind = (settle lim e).view.blind := by
  have follows := holdsFollow_at_end (lim := lim) running
  unfold HoldsFollow at follows
  rw [if_pos ((running_settle lim e).trans running)] at follows
  obtain ⟨_, _, _, _, _, _, blind, _⟩ := follows
  exact blind

theorem exec_becomeReady_expiry {s : State} (listening : s.life = .listening)
    (ready : (noticePeriodExpiry s).life = .ready) :
    exec (.becomeReady .expiry) s = .next (noticePeriodExpiry s) := by
  have joins : becomeReadyAt .expiry s = noticePeriodExpiry s := if_pos (by simp [listening, ready])
  exact congrArg Host.Outcome.next joins

theorem exec_becomeReady_completion {s : State} (listening : s.life = .listening)
    (ready : (offerCompleted s).life = .ready) :
    exec (.becomeReady .completion) s = .next (offerCompleted s) := by
  have joins : becomeReadyAt .completion s = offerCompleted s := if_pos (by simp [listening, ready])
  exact congrArg Host.Outcome.next joins

/-! ### A completed offer -/

/-- What a completion makes of the base (10 R153, R154, R157; 01 R18; 12 R168). -/
def completionSeen (s : State) : State :=
  joined (leaveBlind (markCompletion { s with bus := busCompleted s.own s.bus }))

theorem offerCompleted_eq {s : State} (offered : s.bus.offer ≠ none) :
    offerCompleted s =
      settle false (joinLine (leaveBlind (markCompletion { s with bus := busCompleted s.own s.bus }))) :=
  if_pos (Option.isSome_iff_ne_none.2 offered)

theorem base_offerCompleted {s : State} (offered : s.bus.offer ≠ none) :
    baseOf (offerCompleted s) = baseOf (completionSeen s) := by
  rw [offerCompleted_eq offered, base_settle, base_joinLine]
  rfl

theorem leaveBlind_keeps (s : State) :
    (leaveBlind s).life = s.life ∧ (leaveBlind s).listen = s.listen ∧ (leaveBlind s).probe = s.probe
      ∧ (leaveBlind s).view.completion = s.view.completion ∧ SameSight s (leaveBlind s) := by
  obtain ⟨blind, silence, e⟩ := leaveBlind_eq s
  rw [e]
  exact ⟨rfl, rfl, rfl, rfl, rfl, rfl, rfl, rfl, rfl, rfl, rfl, rfl, rfl, id⟩

theorem leaveBlind_blind (s : State) :
    (leaveBlind s).view.blind = (s.view.blind && !(s.view.completion && !(freshPeers s).isEmpty)) := by
  unfold leaveBlind
  split
  · next leaves =>
    simp only [Bool.and_eq_true, Bool.not_eq_true'] at leaves
    simp [leaves]
  · next stays =>
    cases blind : s.view.blind
    · simp
    · cases completion : s.view.completion
      · simp
      · simp only [blind, completion, Bool.true_and, Bool.not_eq_true'] at stays
        simp [stays]

/-- Of peer view, clock, inputs and bus interface, a completion changes what `busCompleted` writes. -/
theorem completionSeen_view (s : State) :
    (completionSeen s).view.peers = s.view.peers ∧ (completionSeen s).view.trips = s.view.trips
      ∧ (completionSeen s).inputs = s.inputs ∧ (completionSeen s).clock = s.clock
      ∧ { (completionSeen s).bus with queue := [] } = { busCompleted s.own s.bus with queue := [] } := by
  have left := (leaveBlind_keeps (markCompletion { s with bus := busCompleted s.own s.bus })).2.2.2.2
  have sight := left.trans (sameSight_joined _)
  exact ⟨sight.peers, sight.trips, sight.inputs, sight.clock, sight.bus⟩

/-- A LISTENING station that completes an offer at listen count k+1 is READY, and not BLIND by it. -/
theorem completionSeen_joins {s : State} (listening : s.life = .listening) (count : s.listen = s.cfg.k + 1) :
    (completionSeen s).life = .ready ∧ (completionSeen s).probe = true := by
  obtain ⟨life, listen, probe, _, sight⟩ :=
    leaveBlind_keeps (markCompletion { s with bus := busCompleted s.own s.bus })
  have probed : (markCompletion { s with bus := busCompleted s.own s.bus }).probe = true := by
    simp [markCompletion, listening]
  have there : (leaveBlind (markCompletion { s with bus := busCompleted s.own s.bus })).listen =
      (leaveBlind (markCompletion { s with bus := busCompleted s.own s.bus })).cfg.k + 1 := by
    rw [listen, sight.cfg]; exact count
  obtain ⟨ready, _⟩ := joined_at_end (life.trans listening) there (probe.trans probed)
  exact ⟨ready, (sameSight_joined _).probe.trans (probe.trans probed)⟩

/-- Settles O46: the expiry or completion that meets both conditions, read off the base it leaves. -/
theorem listeningEndsInReady : Obligations.ListeningEndsInReady := by
  unfold Obligations.ListeningEndsInReady
  refine ⟨fun d s listening due probed low high => ?_, fun s listening offered count => ?_⟩
  · have running : s.running = true := by simp [State.running, listening]
    have base := base_settle_periodDone d s
    have sight := sameSight_expiry d s
    have silent : silenced (aged d s) = aged d s := if_neg (by change s.life ≠ .ready; simp [listening])
    have counted : countListen (conflictEval (aged d s)) =
        { conflictEval (aged d s) with listen := min (s.listen + 1) (s.cfg.k + 1) } := if_pos listening
    have seen : periodSeen d s =
        joined { conflictEval (aged d s) with listen := min (s.listen + 1) (s.cfg.k + 1) } := by
      unfold periodSeen
      rw [silent, counted]
    have count : min (s.listen + 1) (s.cfg.k + 1) = s.cfg.k + 1 := by omega
    obtain ⟨ready, blind, completion⟩ :=
      joined_at_end (s := { conflictEval (aged d s) with listen := min (s.listen + 1) (s.cfg.k + 1) }) listening
        count probed
    rw [← seen] at ready blind completion
    have listen : (periodSeen d s).listen = s.cfg.k + 1 := (periodSeen_listen d listening).trans count
    have alive : (periodDone d s).running = true := (changes_periodDone due).fixed.running.trans running
    have run : exec (.becomeReady .expiry) s = .next (queueState (settle true (periodDone d s))) := by
      rw [← noticePeriodExpiry_due due]
      refine exec_becomeReady_expiry listening ?_
      obtain ⟨b, ends⟩ := queueState_eq (settle true (periodDone d s))
      rw [noticePeriodExpiry_due due, ends]
      exact (life_of_base base).trans ready
    have status := status_at_end (lim := true) alive ((life_of_base base).trans ready)
    have holdBlind := holds_blind_at_end (lim := true) alive
    have free := fun advance =>
      (holdsFollow_at_end (lim := true) alive).free_of_advance ((running_settle _ _).trans alive) advance
    generalize settle true (periodDone d s) = e at *
    obtain ⟨b, ends⟩ := queueState_eq e
    refine ⟨_, run, ?_⟩
    rw [ends]
    have isBlind : e.view.blind = (s.view.blind || s.bus.lineFault) := (blind_of_base base).trans blind
    refine ⟨(life_of_base base).trans ready, (listen_of_base base).trans listen, sight.peers, isBlind,
      fun seeing fault => ⟨?_, fun advance => ?_, ?_⟩, sight.trips, status, sight.clock⟩
    · exact (congrArg (fun b => b.view.completion) base).trans (completion seeing fault)
    · obtain ⟨_, _, _, _, notBlind⟩ := free advance
      rw [isBlind, fault, Bool.or_true] at notBlind
      exact absurd notBlind (by simp)
    · rw [show e.thrust.holds.blind = e.view.blind from holdBlind, isBlind, fault, Bool.or_true]
  · have running : s.running = true := by simp [State.running, listening]
    have base := base_offerCompleted offered
    obtain ⟨ready, probed⟩ := completionSeen_joins listening count
    obtain ⟨peers, trips, _, clock, bus⟩ := completionSeen_view s
    have run : exec (.becomeReady .completion) s = .next (offerCompleted s) :=
      exec_becomeReady_completion listening ((life_of_base base).trans ready)
    have status : (offerCompleted s).out.status = true := by
      have ended := offerCompleted_eq offered
      have now := (life_of_base base).trans ready
      rw [ended] at now ⊢
      refine status_at_end ?_ now
      rw [running_of_base (base_joinLine _)]
      have life : (completionSeen s).life = .ready := ready
      simp only [State.running, Bool.or_eq_true, decide_eq_true_eq]
      exact .inr life
    have end_ : { (offerCompleted s).bus with queue := [] } = { busCompleted s.own s.bus with queue := [] } :=
      (congrArg Base.bus base).trans bus
    have faults := congrArg Bus.faults end_
    have lineFault := congrArg Bus.lineFault end_
    exact ⟨_, run, (life_of_base base).trans ready, (probe_of_base base).trans probed, faults, lineFault,
      (peers_of_base base).trans peers, (trips_of_base base).trans trips, (clock_of_base base).trans clock, status⟩

end Sys2Proof.Machine
end

section
/-! PROOF. The offers of the bus interface (10 R151 to R154, R158), the sixteenth line fault (10 R154, 01 R17), and the
receive checks (10 R155). -/

namespace Sys2Proof.Machine

open Sys2Proof

/-! ### Frames and the queue -/

/-- The rank of a STATE as 10 R152 gives it, in integers. -/
theorem stateRank_eq {s : State} (last : s.bus.lastSource.getD 0 < s.cfg.n) :
    (stateRank s : Int) =
      ((s.own : Int) - ((s.bus.lastSource.getD (s.cfg.n - 1) : Nat) : Int) - 1) % (s.cfg.n : Int) := by
  have low : s.bus.lastSource.getD (s.cfg.n - 1) < s.cfg.n := by
    cases source : s.bus.lastSource with
    | none => simp only [Option.getD_none]; omega
    | some v => simpa [source] using last
  unfold stateRank
  generalize s.bus.lastSource.getD (s.cfg.n - 1) = v at low ⊢
  have shift : ((s.own + 2 * s.cfg.n - v - 1 : Nat) : Int) = ((s.own : Int) - v - 1) + s.cfg.n * 2 := by omega
  rw [Int.natCast_emod, shift, Int.add_mul_emod_self_left]

/-- A notice of class 2 takes its place behind all others (10 R158). -/
theorem insertNotice_state (q : List QueueItem) :
    insertNotice .state q = q ++ [{ notice := .state, offering := false }] := by
  induction q with
  | nil => rfl
  | cons x xs ih =>
    have low : noticeClass x.notice ≤ noticeClass .state := by cases x.notice <;> simp [noticeClass]
    simp [insertNotice, low, ih]

theorem bus_of_base {s t : State} (h : baseOf t = baseOf s) :
    { t.bus with queue := [] } = { s.bus with queue := [] } := congrArg Base.bus h

/-! ### The line-fault count -/

/-- The station at the sixteenth fault: the condition raised, the completion marker clear (10 R154, 01 R17). -/
def sixteenth (s : State) : State :=
  { s with
    bus := { s.bus with faults := 16, lineFault := true }
    view := { s.view with completion := false } }

theorem countFault_below {s : State} (low : s.bus.faults < 15) :
    countFault s = { s with bus := { s.bus with faults := s.bus.faults + 1 } } := by
  rcases countFault_cases s with e | ⟨high, _, _⟩
  · rw [e, Nat.min_eq_left (by omega)]
  · omega

theorem countFault_sixteenth {s : State} (count : s.bus.faults = 15) (sound : s.bus.lineFault = false) :
    countFault s = if s.life = .ready then enterBlind (sixteenth s) else sixteenth s := by
  have raised : countFault s = raiseLineFault { s with bus := { s.bus with faults := 16 } } := by
    unfold countFault
    rw [count]
    exact if_pos (by simp [sound])
  rw [raised]
  rfl

theorem countFault_bus (s : State) :
    (countFault s).bus =
      { s.bus with
        faults := min (s.bus.faults + 1) 16, lineFault := s.bus.lineFault || decide (15 ≤ s.bus.faults) } := by
  have raised : ∀ u : State, (raiseLineFault u).bus = { u.bus with lineFault := true } := by
    intro u
    unfold raiseLineFault
    dsimp only
    split
    · exact enterBlind_bus _
    · rfl
  unfold countFault
  dsimp only
  split
  · next reached =>
    rw [raised]
    simp only [Bool.and_eq_true, decide_eq_true_eq] at reached
    have high : 15 ≤ s.bus.faults := by omega
    simp [high]
  · next kept =>
    simp only [Bool.and_eq_true, decide_eq_true_eq, Bool.not_eq_true', not_and] at kept
    have same : s.bus.lineFault = (s.bus.lineFault || decide (15 ≤ s.bus.faults)) := by
      by_cases high : 15 ≤ s.bus.faults
      · have fault : s.bus.lineFault = true := by simpa using kept (by omega)
        rw [fault]; rfl
      · simp [high]
    rw [← same]

/-- A fault changes of a station that is not READY the count, the condition and the completion marker. -/
theorem countFault_unready {s : State} (unready : s.life ≠ .ready) :
    ∃ b c, countFault s = { s with bus := b, view := { s.view with completion := c } } := by
  rcases countFault_cases s with e | ⟨_, _, e⟩
  · exact ⟨_, s.view.completion, e⟩
  · refine ⟨{ s.bus with faults := min (s.bus.faults + 1) 16, lineFault := true }, false, e.trans ?_⟩
    unfold raiseLineFault
    exact if_neg unready

theorem base_sixteenth_blind (s : State) : baseOf (enterBlind (sixteenth s)) = baseOf (blinded (sixteenth s)) :=
  base_enterBlind _

theorem blinded_sixteenth (s : State) :
    (blinded (sixteenth s)).view.completion = false ∧ SameSight (sixteenth s) (blinded (sixteenth s)) := by
  refine ⟨?_, sameSight_blinded _⟩
  unfold blinded
  split <;> rfl

/-! ### Offers -/

theorem offerFailed_eq {s : State} (offered : s.bus.offer ≠ none) :
    offerFailed s = settle false (countFault (dropOffer s)) := if_pos (Option.isSome_iff_ne_none.2 offered)

theorem offerFailed_bus {s : State} (offered : s.bus.offer ≠ none) :
    { (offerFailed s).bus with queue := [] } =
      { s.bus with
        queue := [], offer := none, renewal := false, faults := min (s.bus.faults + 1) 16
        lineFault := s.bus.lineFault || decide (15 ≤ s.bus.faults) } := by
  rw [offerFailed_eq offered, bus_of_base (base_settle _ _), countFault_bus]
  rfl

/-- Settles O43: an offer begins with the frame of the queue's head; one that does not complete leaves its notice
waiting. -/
theorem offersBeginAndFail : Obligations.OffersBeginAndFail := by
  unfold Obligations.OffersBeginAndFail
  refine ⟨fun x rest s up idle queue ranks => ?_, fun s nothing => ?_, fun x rest s offered queue onOffer => ?_,
    fun s running offered => ?_, fun x rest s configFault offered queue onOffer => ?_, fun s idle => ?_⟩
  · have run : exec .offerBegin s =
        .next
          { s with
            bus :=
              { s.bus with queue := { x with offering := true } :: rest, offer := some (frameOf s x.notice) } } := by
      change Host.Outcome.next (offerBegin s) = _
      unfold offerBegin
      cases life : s.life with
      | starting => exact absurd life up
      | configFault => rw [idle, queue]
      | listening => rw [idle, queue]
      | ready => rw [idle, queue]
    refine ⟨_, run, frameOf s x.notice, rfl, rfl, rfl, rfl, rfl, ?_⟩
    change (((if x.notice = .state then stateRank s else 0 : Nat)) : Int) = _
    split
    · next isState => exact stateRank_eq (ranks isState).2
    · rfl
  · change Host.Outcome.next (offerBegin s) = _
    unfold offerBegin
    split
    · rfl
    · next idle queue up =>
      rcases nothing with h | h | h
      · exact absurd h up
      · exact absurd idle h
      · rw [h] at queue; exact absurd queue (by simp)
    · rfl
  · have run : contentionLost s = dropOffer s := if_pos (Option.isSome_iff_ne_none.2 offered)
    change Host.Outcome.next (contentionLost s) = _
    rw [run]
    unfold dropOffer
    rw [queue, endOffer_onOffer onOffer]
  · have kept := (evalKeeps_settle false (countFault (dropOffer s))).queue
    have bus := offerFailed_bus offered
    have frame := settle_frame false (countFault (dropOffer s))
    rw [countFault_bus] at kept
    have run : exec .offerFailed s = .next (offerFailed s) := rfl
    rw [← offerFailed_eq offered] at kept frame
    generalize offerFailed s = t at *
    refine ⟨t, run, congrArg Bus.offer bus, congrArg Bus.renewal bus, congrArg Bus.faults bus, ?_, ?_⟩
    · intro x rest queue onOffer
      have same : endOffer s.bus.queue = waitingAgain x rest := by rw [queue, endOffer_onOffer onOffer]
      rw [← same]
      exact kept
    · intro low
      rw [countFault_below (by exact low)] at frame
      exact frame.congr rfl rfl rfl rfl rfl rfl rfl rfl
  · have still : s.running = false := by simp [State.running, configFault]
    have bus := countFault_bus (dropOffer s)
    obtain ⟨b, c, shape⟩ := countFault_unready (s := dropOffer s) (by change s.life ≠ .ready; simp [configFault])
    have ended : offerFailed s = countFault (dropOffer s) := by
      rw [offerFailed_eq offered, settle_idle (by rw [shape]; exact still)]
    have dropped : (dropOffer s).bus.queue = waitingAgain x rest := by
      change endOffer s.bus.queue = _
      rw [queue, endOffer_onOffer onOffer]
    refine ⟨_, congrArg Host.Outcome.next ended, ?_, ?_⟩
    · rw [bus, ← dropped]; rfl
    · rw [shape]; rfl
  · have nothing : s.bus.offer.isSome = false := by rw [idle]; rfl
    have failed : offerFailed s = s := if_neg (by simp [nothing])
    have lost : contentionLost s = s := if_neg (by simp [nothing])
    exact ⟨congrArg Host.Outcome.next failed, congrArg Host.Outcome.next lost⟩

/-! ### Completions -/

theorem leaveBlind_bus (s : State) : (leaveBlind s).bus = s.bus := by
  obtain ⟨_, _, e⟩ := leaveBlind_eq s
  rw [e]

/-- After a completion, which ends every line fault, becoming READY makes no station BLIND. -/
theorem completionSeen_blind (s : State) :
    (completionSeen s).view =
      (leaveBlind (markCompletion { s with bus := busCompleted s.own s.bus })).view := by
  have sound : (leaveBlind (markCompletion { s with bus := busCompleted s.own s.bus })).bus.lineFault = false := by
    rw [leaveBlind_bus]; rfl
  change (joined (leaveBlind (markCompletion { s with bus := busCompleted s.own s.bus }))).view = _
  generalize leaveBlind (markCompletion { s with bus := busCompleted s.own s.bus }) = u at sound ⊢
  unfold joined
  split
  · rw [if_neg (by simp [sound])]
  · rfl

theorem queueKept_offerCompleted {s : State} (offered : s.bus.offer ≠ none) :
    QueueKept (busCompleted s.own s.bus).queue (offerCompleted s) := by
  have kept := (evalKeeps_settle false
    (joinLine (leaveBlind (markCompletion { s with bus := busCompleted s.own s.bus })))).queue
  rw [joinLine_bus, leaveBlind_bus, ← offerCompleted_eq offered] at kept
  exact kept

theorem busCompleted_state {own : Nat} {b : Bus} (isState : offeredNotice b.queue = some .state) :
    (busCompleted own b).page = (b.page + 1) % 8 ∧ (busCompleted own b).lastSource = some own := by
  simp [busCompleted, isState]

theorem busCompleted_other {own : Nat} {b : Bus} (other : offeredNotice b.queue ≠ some .state) :
    busCompleted own b =
      { b with
        queue := b.queue.eraseP QueueItem.offering, offer := none, faults := 0, lineFault := false
        renewal := false } := by
  simp [busCompleted, other]

theorem busCompleted_queue (own : Nat) (b : Bus) :
    (busCompleted own b).queue =
      if offeredNotice b.queue = some .state ∧ b.renewal = true then
        b.queue.eraseP QueueItem.offering ++ [{ notice := .state, offering := false }]
      else b.queue.eraseP QueueItem.offering := by
  simp [busCompleted, insertNotice_state]

/-- Settles O44: a completion, read off the base it leaves, and the queue the units find. -/
theorem offerCompletionHandedOn : Obligations.OfferCompletionHandedOn := by
  unfold Obligations.OfferCompletionHandedOn
  refine ⟨fun s running offered => ?_, fun s configFault seeing offered other => ?_, fun s idle => ?_⟩
  · have kept := queueKept_offerCompleted offered
    rw [busCompleted_queue] at kept
    have base := base_offerCompleted offered
    obtain ⟨peers, trips, inputs, clock, busSeen⟩ := completionSeen_view s
    have view := completionSeen_blind s
    have bus := (bus_of_base base).trans busSeen
    obtain ⟨_, _, probe, completion, sight⟩ :=
      leaveBlind_keeps (markCompletion { s with bus := busCompleted s.own s.bus })
    have blind := leaveBlind_blind (markCompletion { s with bus := busCompleted s.own s.bus })
    have fresh : freshPeers (markCompletion { s with bus := busCompleted s.own s.bus }) = freshPeers s := rfl
    have probed : s.life = .listening → (completionSeen s).probe = true := by
      intro listening
      change (joined _).probe = true
      rw [(sameSight_joined _).probe, probe]
      simp [markCompletion, listening]
    have run : exec .offerCompleted s = .next (offerCompleted s) := rfl
    generalize offerCompleted s = t at *
    refine ⟨t, run, congrArg Bus.offer bus, congrArg Bus.faults bus, congrArg Bus.lineFault bus,
      congrArg Bus.renewal bus, kept, fun isState => ?_, fun other => ?_, ?_, fun blind => ?_, fun listening => ?_,
      fun listening count => ?_, (peers_of_base base).trans peers, (trips_of_base base).trans trips,
      (inputs_of_base base).trans inputs, (clock_of_base base).trans clock⟩
    · obtain ⟨page, source⟩ := busCompleted_state (own := s.own) isState
      exact ⟨(congrArg Bus.page bus).trans page, (congrArg Bus.lastSource bus).trans source⟩
    · have same := busCompleted_other (own := s.own) other
      have page : (busCompleted s.own s.bus).page = s.bus.page := by rw [same]
      have source : (busCompleted s.own s.bus).lastSource = s.bus.lastSource := by rw [same]
      exact ⟨(congrArg Bus.page bus).trans page, (congrArg Bus.lastSource bus).trans source⟩
    · rw [blind_of_base base, view, blind, fresh]
      change (s.view.blind && !((s.view.completion || s.view.blind) && !(freshPeers s).isEmpty)) = _
      cases s.view.blind <;> simp
    · have there : t.view.completion = (completionSeen s).view.completion :=
        congrArg (fun b => b.view.completion) base
      rw [there, view, completion]
      simp [markCompletion, blind]
    · exact (probe_of_base base).trans (probed listening)
    · exact (life_of_base base).trans (completionSeen_joins listening count).1
  · have still : s.running = false := by simp [State.running, configFault]
    have marked : markCompletion { s with bus := busCompleted s.own s.bus } =
        { s with bus := busCompleted s.own s.bus } := by
      have completion : (s.view.completion || s.view.blind) = s.view.completion := by rw [seeing, Bool.or_false]
      have probe : (s.probe || decide (s.life = .listening)) = s.probe := by simp [configFault]
      unfold markCompletion
      dsimp only
      rw [completion, probe]
    have sees : leaveBlind { s with bus := busCompleted s.own s.bus } = { s with bus := busCompleted s.own s.bus } :=
      if_neg (by simp [seeing])
    have joins : joinLine { s with bus := busCompleted s.own s.bus } = { s with bus := busCompleted s.own s.bus } :=
      joinLine_idle (by simp [configFault])
    change Host.Outcome.next (offerCompleted s) = _
    rw [offerCompleted_eq offered, marked, sees, joins, settle_idle (by exact still), busCompleted_other other]
  · have nothing : s.bus.offer.isSome = false := by rw [idle]; rfl
    have same : offerCompleted s = s := if_neg (by simp [nothing])
    exact congrArg Host.Outcome.next same

end Sys2Proof.Machine
end

section
/-! PROOF. The sixteenth line fault makes a READY station BLIND (10 R154, R156; 01 R17), and what the receive checks
discard (10 R155). -/

namespace Sys2Proof.Machine

open Sys2Proof

/-! ### A foreign own-address notice -/

/-- The station as a foreign notice with its own address is heard, before the fault is counted (10 R152, R156; 12
R168). -/
def foreignHeard (isState : Bool) (s : State) : State :=
  if s.life = .listening then { (if isState then hearSource s.own s else s) with listen := 0 }
  else if isState then hearSource s.own s else s

theorem foreignNotice_eq {isState : Bool} {s : State} (running : s.running = true) :
    foreignNotice isState s = settle false (countFault (foreignHeard isState s)) := if_pos running

theorem foreignHeard_eq {isState : Bool} {s : State} (own : s.own < s.cfg.n) :
    foreignHeard isState s =
      { s with
        bus := { s.bus with lastSource := if isState then some s.own else s.bus.lastSource }
        listen := if s.life = .listening then 0 else s.listen } := by
  have heard : hearSource s.own s = { s with bus := { s.bus with lastSource := some s.own } } := if_pos own
  unfold foreignHeard
  rw [heard]
  by_cases listening : s.life = .listening
  · rw [if_pos listening, if_pos listening]
    cases isState <;> rfl
  · rw [if_neg listening, if_neg listening]
    cases isState <;> rfl

/-- Whatever is heard, of the station only the last STATE source and the listen count change. -/
theorem foreignHeard_shape (isState : Bool) (s : State) :
    ∃ l, foreignHeard isState s =
      { s with bus := { s.bus with lastSource := l }, listen := if s.life = .listening then 0 else s.listen } := by
  have heard : ∃ l, (if isState then hearSource s.own s else s) = { s with bus := { s.bus with lastSource := l } } := by
    unfold hearSource
    split
    · split
      · exact ⟨_, rfl⟩
      · exact ⟨s.bus.lastSource, rfl⟩
    · exact ⟨s.bus.lastSource, rfl⟩
  obtain ⟨l, e⟩ := heard
  refine ⟨l, ?_⟩
  unfold foreignHeard
  rw [e]
  by_cases listening : s.life = .listening
  · rw [if_pos listening, if_pos listening]
  · rw [if_neg listening, if_neg listening]

theorem foreignHeard_quiet {s : State} : (foreignHeard false s).bus = s.bus := by
  unfold foreignHeard
  split <;> rfl

/-! ### The sixteenth fault -/

/-- The station that the occasion of a line fault finds as its fault is counted: the offer ended, or the notice heard. -/
def faultFound (by_ : FaultOccasion) (s : State) : State :=
  match by_ with
  | .failedOffer => dropOffer s
  | .foreignNotice isState => foreignHeard isState s

theorem lineFault_eq {by_ : FaultOccasion} {s : State} (running : s.running = true) (count : s.bus.faults = 15)
    (sound : s.bus.lineFault = false) (offered : by_ = .failedOffer → s.bus.offer ≠ none) :
    lineFault by_ s = settle false (countFault (faultFound by_ s)) := by
  have next : faultNext s = true := by simp [faultNext, count, sound]
  unfold lineFault
  rw [if_pos next]
  cases by_ with
  | failedOffer => exact offerFailed_eq (offered rfl)
  | foreignNotice isState => exact foreignNotice_eq running

/-- What is found keeps count, condition and sight. -/
theorem faultFound_keeps (by_ : FaultOccasion) (s : State) :
    (faultFound by_ s).life = s.life ∧ (faultFound by_ s).bus.faults = s.bus.faults
      ∧ (faultFound by_ s).bus.lineFault = s.bus.lineFault ∧ (faultFound by_ s).view = s.view
      ∧ (faultFound by_ s).inputs = s.inputs ∧ (faultFound by_ s).clock = s.clock
      ∧ (faultFound by_ s).listen =
          (if by_ = .failedOffer then s.listen else if s.life = .listening then 0 else s.listen) := by
  cases by_ with
  | failedOffer => exact ⟨rfl, rfl, rfl, rfl, rfl, rfl, rfl⟩
  | foreignNotice isState =>
    obtain ⟨l, e⟩ := foreignHeard_shape isState s
    unfold faultFound
    dsimp only
    rw [e]
    exact ⟨rfl, rfl, rfl, rfl, rfl, rfl, rfl⟩

theorem faultFound_offer (by_ : FaultOccasion) (s : State) :
    (faultFound by_ s).bus.offer = if by_ = .failedOffer then none else s.bus.offer := by
  cases by_ with
  | failedOffer => rfl
  | foreignNotice isState =>
    obtain ⟨l, e⟩ := foreignHeard_shape isState s
    unfold faultFound
    dsimp only
    rw [e]
    rfl

/-- The last STATE source after the occasion of a line fault (10 R152). -/
theorem faultFound_lastSource (by_ : FaultOccasion) (s : State) :
    (by_ ≠ .foreignNotice true → (faultFound by_ s).bus.lastSource = s.bus.lastSource)
      ∧ (by_ = .foreignNotice true → s.own < s.cfg.n → (faultFound by_ s).bus.lastSource = some s.own) := by
  refine ⟨fun other => ?_, fun isState own => ?_⟩
  · match by_ with
    | .failedOffer => rfl
    | .foreignNotice false => exact congrArg Bus.lastSource foreignHeard_quiet
    | .foreignNotice true => exact absurd rfl other
  · subst isState
    unfold faultFound
    dsimp only
    rw [foreignHeard_eq own]
    rfl

/-- Outside the sixteenth fault the row changes nothing (log 4). -/
theorem lineFault_same {by_ : FaultOccasion} {s : State} (other : s.bus.faults ≠ 15 ∨ s.bus.lineFault = true) :
    lineFault by_ s = s := by
  have none : faultNext s = false := by
    rcases other with h | h <;> simp [faultNext, h]
  unfold lineFault
  rw [if_neg (by simp [none])]

/-- Settles O45: a fault is counted on the station its occasion finds; the sixteenth enters BLIND at a READY one. -/
theorem lineFaultMakesBlind : Obligations.LineFaultMakesBlind := by
  unfold Obligations.LineFaultMakesBlind
  refine ⟨fun by_ s ready count sound offered => ?_, fun isState s running own low => ?_,
    fun by_ s listening count sound offered => ?_, fun s count sound => ?_, fun by_ s other => ?_,
    fun isState s still => ?_⟩
  · have run := lineFault_eq (running_of_ready ready) count sound offered
    obtain ⟨life, faults, fault, view, inputs, clock, _⟩ := faultFound_keeps by_ s
    obtain ⟨other, isState⟩ := faultFound_lastSource by_ s
    have offer := faultFound_offer by_ s
    generalize faultFound by_ s = u at *
    have counted : countFault u = enterBlind (sixteenth u) := by
      rw [countFault_sixteenth (faults.trans count) (fault.trans sound), if_pos (life.trans ready)]
    rw [counted] at run
    obtain ⟨completion, sight⟩ := blinded_sixteenth u
    have base : baseOf (settle false (enterBlind (sixteenth u))) = baseOf (blinded (sixteenth u)) :=
      (base_settle _ _).trans (base_sixteenth_blind u)
    have alive : (enterBlind (sixteenth u)).running = true :=
      (running_of_base (base_sixteenth_blind u)).trans
        (running_of_ready ((blinded_keeps _).2.2.2.1.trans (life.trans ready)))
    have idle : s.view.blind = false →
        (settle false (enterBlind (sixteenth u))).build.state ≠ .building := by
      intro seeing
      refine settle_not_building false alive ?_
      rcases enterBlind_cases (sixteenth u) with ⟨blind, _⟩ | ⟨_, e⟩
      · have : u.view.blind = true := blind
        rw [view, seeing] at this
        exact absurd this (by simp)
      · rw [e]; exact suspendBuild_not_building _
    have blind := (blind_of_base base).trans (blinded_blind _)
    have hold : (settle false (enterBlind (sixteenth u))).thrust.mode ≠ .advance := fun advance => by
      obtain ⟨_, _, _, _, free⟩ :=
        (holdsFollow_at_end alive).free_of_advance ((running_settle _ _).trans alive) advance
      rw [blind] at free
      exact absurd free (by simp)
    have bus := (bus_of_base base).trans sight.bus
    have answered : exec (.lineFault by_) s = .next (settle false (enterBlind (sixteenth u))) :=
      congrArg Host.Outcome.next run
    generalize settle false (enterBlind (sixteenth u)) = t at *
    have lastSource : t.bus.lastSource = u.bus.lastSource := by
      have same := congrArg Bus.lastSource bus; exact same
    have offerSeen : t.bus.offer = u.bus.offer := by
      have same := congrArg Bus.offer bus; exact same
    have peers : u.view.peers = s.view.peers := by rw [view]
    have trips : u.view.trips = s.view.trips := by rw [view]
    refine ⟨t, answered, congrArg Bus.faults bus, congrArg Bus.lineFault bus, fun h => lastSource.trans (other h),
      fun h own => lastSource.trans (isState h own), fun h => ?_, fun h => ?_, blind, ?_, idle, hold,
      ?_, ?_, (inputs_of_base base).trans (sight.inputs.trans inputs),
      (clock_of_base base).trans (sight.clock.trans clock)⟩
    · rw [offerSeen, offer, if_pos h]
    · rw [offerSeen, offer, if_neg h]
    · exact (congrArg (fun b => b.view.completion) base).trans completion
    · exact (peers_of_base base).trans (sight.peers.trans peers)
    · exact (trips_of_base base).trans (sight.trips.trans trips)
  · have run : exec (.foreignOwnAddressNotice isState) s =
        .next (settle false (countFault (foreignHeard isState s))) :=
      congrArg Host.Outcome.next (foreignNotice_eq running)
    have heard := foreignHeard_eq (isState := isState) own
    have frame := settle_frame false (countFault (foreignHeard isState s))
    rw [countFault_below (by rw [heard]; exact low)] at frame run
    rw [heard] at frame run
    exact ⟨_, run, frame.congr rfl rfl rfl rfl rfl rfl rfl rfl⟩
  · have running : s.running = true := by simp [State.running, listening]
    have run := lineFault_eq running count sound offered
    obtain ⟨life, faults, fault, view, _, _, listen⟩ := faultFound_keeps by_ s
    generalize faultFound by_ s = u at *
    have counted : countFault u = sixteenth u := by
      rw [countFault_sixteenth (faults.trans count) (fault.trans sound), if_neg (by rw [life, listening]; simp)]
    rw [counted] at run
    have base := base_settle false (sixteenth u)
    have bus := bus_of_base base
    have answered : exec (.lineFault by_) s = .next (settle false (sixteenth u)) := congrArg Host.Outcome.next run
    have blind : u.view.blind = s.view.blind := by rw [view]
    generalize settle false (sixteenth u) = t at *
    refine ⟨t, answered, (life_of_base base).trans (life.trans listening), congrArg Bus.faults bus,
      congrArg Bus.lineFault bus, (blind_of_base base).trans blind, ?_⟩
    rw [listen_of_base base]
    change u.listen = _
    rw [listen, if_pos listening]
  · have next : faultNext s = true := by simp [faultNext, count, sound]
    have failed : lineFault .failedOffer s = offerFailed s := if_pos next
    have foreign : ∀ isState, lineFault (.foreignNotice isState) s = foreignNotice isState s := fun _ => if_pos next
    exact ⟨congrArg Host.Outcome.next failed, fun isState => congrArg Host.Outcome.next (foreign isState)⟩
  · exact congrArg Host.Outcome.next (lineFault_same other)
  · have same : foreignNotice isState s = s := if_neg (by simp [still])
    exact congrArg Host.Outcome.next same

/-! ### The receive checks -/

/-- What a notice that passes the receive checks meets whatever its kind (10 R155). -/
theorem rxPasses_any {n : RxNotice} (passes : rxPasses n = true) :
    n.complete = true ∧ n.body.length = n.len.toNat ∧ n.check.toNat = checkWord (frameBits (rxFrame n))
      ∧ (n.source.toNat < 8 ∨ n.source.toNat = 14 ∨ n.source.toNat = 15) ∧ rxLength n = true ∧ rxKind n = true
      ∧ rxKindSource n = true := by
  simp only [rxPasses, rxComplete, rxSource, stationSource, Bool.and_eq_true, Bool.or_eq_true,
    decide_eq_true_eq] at passes
  obtain ⟨⟨⟨⟨⟨⟨complete, length⟩, check⟩, fits⟩, source⟩, kind⟩, sends⟩ := passes
  exact ⟨complete, length, check, by tauto, fits, kind, sends⟩

theorem rxPasses_kind_le {n : RxNotice} (passes : rxPasses n = true) : n.kind.toNat ≤ 5 := by
  obtain ⟨_, _, _, _, _, kind, _⟩ := rxPasses_any passes
  unfold rxKind at kind
  split at kind <;> simp_all

theorem rxPasses_state {n : RxNotice} (passes : rxPasses n = true) (kind : n.kind.toNat = 0) :
    n.len.toNat = 32 ∧ n.cls.toNat = 2 ∧ n.source.toNat < 8 := by
  obtain ⟨_, _, _, _, fits, cls, sends⟩ := rxPasses_any passes
  simp only [rxLength, rxKind, rxKindSource, stationSource, kind, decide_eq_true_eq] at fits cls sends
  exact ⟨fits, cls, sends⟩

theorem rxPasses_trip {n : RxNotice} (passes : rxPasses n = true) (kind : n.kind.toNat = 1) :
    n.len.toNat = 1 ∧ n.cls.toNat = 0 ∧ n.rank.toNat = 0 ∧ (n.source.toNat < 8 ∨ n.source.toNat = 14) := by
  obtain ⟨_, _, _, _, fits, cls, sends⟩ := rxPasses_any passes
  simp only [rxLength, rxKind, rxKindSource, stationSource, kind, decide_eq_true_eq, Bool.and_eq_true,
    Bool.or_eq_true] at fits cls sends
  exact ⟨fits, cls.1, cls.2, sends⟩

theorem rxPasses_pace {n : RxNotice} (passes : rxPasses n = true) (kind : n.kind.toNat = 2) :
    n.len.toNat = 1 ∧ n.cls.toNat = 1 ∧ n.rank.toNat = 0 ∧ n.source.toNat < 8 := by
  obtain ⟨_, _, _, _, fits, cls, sends⟩ := rxPasses_any passes
  simp only [rxLength, rxKind, rxKindSource, stationSource, kind, decide_eq_true_eq, Bool.and_eq_true] at fits cls sends
  exact ⟨fits, cls.1, cls.2, sends⟩

theorem rxPasses_step {n : RxNotice} (passes : rxPasses n = true) (kind : n.kind.toNat = 3) :
    n.len.toNat = 4 ∧ n.cls.toNat = 1 ∧ n.rank.toNat = 0 ∧ n.source.toNat < 8 := by
  obtain ⟨_, _, _, _, fits, cls, sends⟩ := rxPasses_any passes
  simp only [rxLength, rxKind, rxKindSource, stationSource, kind, decide_eq_true_eq, Bool.and_eq_true] at fits cls sends
  exact ⟨fits, cls.1, cls.2, sends⟩

theorem rxPasses_command {n : RxNotice} (passes : rxPasses n = true) (kind : n.kind.toNat = 4) :
    (2 ≤ n.len.toNat ∧ n.len.toNat ≤ 32) ∧ n.cls.toNat = 1 ∧ n.rank.toNat = 0
      ∧ (n.source.toNat = 14 ∨ n.source.toNat = 15) := by
  obtain ⟨_, _, _, _, fits, cls, sends⟩ := rxPasses_any passes
  simp only [rxLength, rxKind, rxKindSource, kind, decide_eq_true_eq, Bool.and_eq_true, Bool.or_eq_true] at fits cls sends
  exact ⟨fits, cls.1, cls.2, sends⟩

theorem rxPasses_reply {n : RxNotice} (passes : rxPasses n = true) (kind : n.kind.toNat = 5) :
    (3 ≤ n.len.toNat ∧ n.len.toNat ≤ 32) ∧ n.cls.toNat = 1 ∧ n.rank.toNat = 0 ∧ n.source.toNat < 8 := by
  obtain ⟨_, _, _, _, fits, cls, sends⟩ := rxPasses_any passes
  simp only [rxLength, rxKind, rxKindSource, stationSource, kind, decide_eq_true_eq, Bool.and_eq_true] at fits cls sends
  exact ⟨fits, cls.1, cls.2, sends⟩

/-! ### Enumerated fields -/

/-- A field of one byte is that byte, 0 beyond the end of the body. -/
theorem fieldAt_one (bs : List Byte) (i : Nat) : fieldAt bs i 1 = (bs.getD i 0).toNat := by
  induction bs generalizing i with
  | nil => simp [fieldAt, beNat]
  | cons b bs ih =>
    cases i with
    | zero => simp [fieldAt, beNat]
    | succ i => simpa [fieldAt] using ih i

theorem fieldAt_drop (bs : List Byte) (j i k : Nat) : fieldAt (bs.drop j) i k = fieldAt bs (j + i) k := by
  simp [fieldAt, List.drop_drop]

/-- The enumerated fields of the pages that hold one (10 section 10.6). -/
theorem pageValid_iff {p : Nat} {bs : List Byte} :
    pageValid p (bs.drop 23) = true ↔
      (p = 0 → (bs.getD 26 0).toNat / 32 < 5) ∧ (p = 1 → (bs.getD 28 0).toNat < 2)
        ∧ (p = 4 → (bs.getD 23 0).toNat / 64 < 3) ∧ (p = 5 → (bs.getD 24 0).toNat / 64 < 3) := by
  have field : ∀ i, fieldAt (bs.drop 23) i 1 = (bs.getD (23 + i) 0).toNat := fun i => by
    rw [fieldAt_drop, fieldAt_one]
  unfold pageValid
  split
  · simp [field]
  · simp [field]
  · simp [field]
  · simp [field]
  · next a b c d => simp [show p ≠ 0 from a, show p ≠ 1 from b, show p ≠ 4 from c, show p ≠ 5 from d]

theorem decodeAt_none {α : Type} {values : List α} {code : Nat} (beyond : values.length ≤ code) :
    decodeAt values code = none := List.getElem?_eq_none beyond

/-- The fields of a STATE body lie in their lists (10 R155). -/
structure FieldsListed (bs : List Byte) : Prop where
  build : (bs.getD 3 0).toNat / 64 < 3
  index : (bs.getD 3 0).toNat / 4 % 16 ≤ 8
  mode : (bs.getD 4 0).toNat / 32 < 6
  pace : (bs.getD 4 0).toNat / 8 % 4 < 3
  drive : (bs.getD 9 0).toNat / 32 < 6
  line : (bs.getD 9 0).toNat / 4 % 8 < 6
  page : pageValid ((bs.getD 0 0).toNat % 8) (bs.drop 23) = true

theorem lt_of_decodeAt {α : Type} {values : List α} {code : Nat} {v : α} (h : decodeAt values code = some v) :
    code < values.length := (List.getElem?_eq_some_iff.1 h).1

theorem fieldsListed_of_parseState {bs : List Byte} {b : StateBody} (h : parseState bs = some b) : FieldsListed bs := by
  unfold parseState at h
  dsimp only at h
  split at h
  · next build mode pace drive line =>
    split at h
    · next listed =>
      simp only [Bool.and_eq_true, decide_eq_true_eq] at listed
      simp only [fieldAt_one] at build mode pace drive line listed
      exact ⟨lt_of_decodeAt build, listed.1, lt_of_decodeAt mode, lt_of_decodeAt pace, lt_of_decodeAt drive,
        lt_of_decodeAt line, listed.2⟩
    · exact absurd h (by simp)
  · exact absurd h (by simp)

/-! ### Notices that change nothing -/

theorem receiveNotice_unread {n : RxNotice} {s : State} (unread : s.life = .starting ∨ rxPasses n = false) :
    receiveNotice n s = s := by
  unfold receiveNotice
  refine if_pos ?_
  rcases unread with h | h <;> simp [h]

theorem receiveState_unlisted {n : RxNotice} (s : State) (unlisted : ¬ FieldsListed n.body) : receiveState n s = s := by
  unfold receiveState
  split
  · next b parsed => exact absurd (fieldsListed_of_parseState parsed) unlisted
  · rfl

theorem receiveTrip_unlisted {n : RxNotice} (s : State) (unlisted : 2 < (n.body.getD 0 0).toNat) :
    receiveTrip n s = s := by
  unfold receiveTrip
  rw [fieldAt_one, decodeAt_none (by exact unlisted)]

theorem receivePace_unlisted {n : RxNotice} (s : State) (unlisted : 2 < (n.body.getD 0 0).toNat) :
    receivePace n s = s := by
  unfold receivePace
  rw [fieldAt_one, decodeAt_none (by exact unlisted)]

theorem receiveStep_unlisted {n : RxNotice} (s : State) (unlisted : 3 < (n.body.getD 0 0).toNat) :
    receiveStep n s = s := by
  unfold receiveStep
  rw [fieldAt_one, decodeAt_none (by exact unlisted)]

theorem receiveCommand_elsewhere {n : RxNotice} {s : State} (own : n.dest.toNat ≠ s.own) (all : n.dest.toNat ≠ 8) :
    receiveCommand n s = s := by
  unfold receiveCommand
  exact if_neg (by simp [own, all])

/-- What the owner of a notice's kind makes of it (10 R155). -/
def handedOn (n : RxNotice) (s : State) : State :=
  match n.kind.toNat with
  | 0 => receiveState n s
  | 1 => receiveTrip n s
  | 2 => receivePace n s
  | 3 => receiveStep n s
  | 4 => receiveCommand n s
  | _ => if n.source.toNat = s.own then foreignNotice false s else s

theorem receiveNotice_read {n : RxNotice} {s : State} (up : s.life ≠ .starting) (passes : rxPasses n = true) :
    receiveNotice n s = handedOn n s := if_neg (by simp [up, passes])

/-- Settles O47: whatever discards the notice, either the checks do, or the owner of its kind does. -/
theorem discardedNoticesChangeNothing : Obligations.DiscardedNoticesChangeNothing := by
  unfold Obligations.DiscardedNoticesChangeNothing
  intro n s discarded
  change Host.Outcome.next (receiveNotice n s) = _
  congr 1
  by_cases unread : s.life = .starting ∨ rxPasses n = false
  · exact receiveNotice_unread unread
  · rw [not_or, Bool.not_eq_false] at unread
    obtain ⟨up, passes⟩ := unread
    obtain ⟨complete, length, check, source, _⟩ := rxPasses_any passes
    have known := rxPasses_kind_le passes
    rw [receiveNotice_read up passes]
    unfold handedOn
    split
    · next kind =>
      obtain ⟨len, cls, sender⟩ := rxPasses_state passes kind
      refine receiveState_unlisted s fun listed => ?_
      obtain ⟨build, index, mode, pace, drive, line, page⟩ := listed
      have pages := pageValid_iff.1 page
      simp only [up, complete, length, check, kind, len, cls, ne_eq, not_true_eq_false, false_or, Bool.true_eq_false,
        false_and, true_and, or_false, reduceCtorEq] at discarded
      omega
    · next kind =>
      obtain ⟨len, cls, rank, sender⟩ := rxPasses_trip passes kind
      refine receiveTrip_unlisted s ?_
      simp only [up, complete, length, check, kind, len, cls, rank, ne_eq, not_true_eq_false, false_or,
        Bool.true_eq_false] at discarded
      omega
    · next kind =>
      obtain ⟨len, cls, rank, sender⟩ := rxPasses_pace passes kind
      refine receivePace_unlisted s ?_
      simp only [up, complete, length, check, kind, len, cls, rank, ne_eq, not_true_eq_false, false_or,
        Bool.true_eq_false] at discarded
      omega
    · next kind =>
      obtain ⟨len, cls, rank, sender⟩ := rxPasses_step passes kind
      refine receiveStep_unlisted s ?_
      simp only [up, complete, length, check, kind, len, cls, rank, ne_eq, not_true_eq_false, false_or,
        Bool.true_eq_false] at discarded
      omega
    · next kind =>
      obtain ⟨len, cls, rank, sender⟩ := rxPasses_command passes kind
      have elsewhere : n.dest.toNat ≠ s.own ∧ n.dest.toNat ≠ 8 := by
        simp only [up, complete, length, check, kind, cls, rank, ne_eq, not_true_eq_false, false_or,
          Bool.true_eq_false] at discarded
        omega
      exact receiveCommand_elsewhere elsewhere.1 elsewhere.2
    · next state trip pace step command =>
      have kind : n.kind.toNat = 5 := by
        have other : n.kind.toNat ≠ 0 ∧ n.kind.toNat ≠ 1 ∧ n.kind.toNat ≠ 2 ∧ n.kind.toNat ≠ 3 ∧ n.kind.toNat ≠ 4 :=
          ⟨state, trip, pace, step, command⟩
        omega
      obtain ⟨len, cls, rank, sender⟩ := rxPasses_reply passes kind
      refine if_neg ?_
      simp only [up, complete, length, check, kind, cls, rank, ne_eq, not_true_eq_false, false_or,
        Bool.true_eq_false] at discarded
      omega

end Sys2Proof.Machine
end

section
/-! PROOF. The commands of the face and train unit (06 R105, 07 R109, R113, R119) and the chamber pressure cell (01 R7). -/

namespace Sys2Proof.Machine

open Sys2Proof

/-! ### Operands of two and three fields -/

theorem splitFields_two {j k x y : Nat} (hx : x < 256 ^ j) (hy : y < 256 ^ k) :
    splitFields [j, k] (beBytes j x ++ beBytes k y) = some [x, y] := by
  rw [splitFields_beBytes, splitFields_last, Nat.mod_eq_of_lt hx, Nat.mod_eq_of_lt hy]
  rfl

theorem splitFields_three {i j k x y z : Nat} (hx : x < 256 ^ i) (hy : y < 256 ^ j) (hz : z < 256 ^ k) :
    splitFields [i, j, k] (beBytes i x ++ beBytes j y ++ beBytes k z) = some [x, y, z] := by
  rw [List.append_assoc, splitFields_beBytes, splitFields_two hy hz, Nat.mod_eq_of_lt hx]
  rfl

/-! ### How an event ends -/

/-- The pace reasons and the pace as an event ends (07 R115, R117). -/
theorem paceFollows_at_end {lim : Bool} {e : State} (running : e.running = true) : PaceFollows (settle lim e) := by
  have parts : ∀ (s : State) g r o, PaceFollows s → PaceFollows { s with grout := g, records := r, out := o } :=
    fun _ _ _ _ h => h
  rw [settle_shape running]
  exact parts (unitsAtEnd lim e) _ _ _ paceFollows_unitsEval

@[simp] theorem answer_train (h : CmdHead) (n : Nat) (a : Answer) : (answer h n a).train = a.state.train := by
  obtain ⟨q, shape⟩ := answer_shape h n a
  rw [shape]

@[simp] theorem base_answer (h : CmdHead) (n : Nat) (a : Answer) : baseOf (answer h n a) = baseOf a.state := by
  obtain ⟨q, shape⟩ := answer_shape h n a
  rw [shape]
  rfl

/-- An answer that is sent to a broadcast too, with one notice of data (11 R164). -/
theorem sent_always (h : CmdHead) (n : Nat) (d : List Byte) (t : State) :
    Sent h n .done d (answer h n { result := .done, state := t, data := [d], always := true }) := by
  have sends : answer h n { result := .done, state := t, data := [d], always := true } =
      enqueue (.reply h.source n h.tag .done d) t := by
    simp [answer, replies, queueReplies]
  rw [sends]
  exact sent_enqueue h n .done d t

/-! ### TRAIN IN and TRAIN OUT -/

/-- The cars of a TRAIN IN by their positions (07 R109, R114). -/
theorem newTrain_eq {n : Nat} (some_car : 1 ≤ n) (capacity : Nat) (isOver : Bool) :
    newTrain n capacity isOver =
      (List.range n).map (fun i =>
        { capacity := capacity, filled := 0, additive := 0, state := if i = 0 then .filling else .waiting
          flagAdditive := false, flagOver := decide (i = 0) && isOver, flagShort := false }) := by
  obtain ⟨m, rfl⟩ : ∃ m, n = m + 1 := ⟨n - 1, by omega⟩
  rw [List.range_succ_eq_map, List.map_cons, List.map_map]
  unfold newTrain emptyCar
  simp only [decide_true, Bool.true_and, if_true, Nat.add_sub_cancel]
  congr 1
  have rest : ∀ i ∈ List.range m,
      ((fun i : Nat =>
        ({ capacity := capacity, filled := 0, additive := 0, state := if i = 0 then .filling else .waiting
           flagAdditive := false, flagOver := decide (i = 0) && isOver, flagShort := false } : Car)) ∘ Nat.succ) i =
        { capacity := capacity, filled := 0, additive := 0, state := .waiting, flagAdditive := false
          flagOver := false, flagShort := false } := fun i _ => by simp
  rw [List.map_congr_left rest, List.map_const', List.length_range]

/-- The station with the cars of a TRAIN IN, before the units are evaluated (07 R109). -/
def withTrain (n capacity : Nat) (s : State) : State :=
  { s with train := { s.train with cars := newTrain n capacity s.train.reasons.isOver } }

theorem exec_trainIn {n c : Nat} (low : 1 ≤ n) (high : n ≤ 8) (hc : c < 65536) (h : CmdHead) {s : State}
    (ready : s.life = .ready) (role : s.cfg.roles.screw = true) :
    exec (.trainIn h (beBytes 1 n ++ beBytes 2 c)) s = .next (answer h 17 (trainInCommand.owner [n, c] s)) := by
  have fields : splitFields [1, 2] (beBytes 1 n ++ beBytes 2 c) = some [n, c] :=
    splitFields_two (show n < 256 by omega) hc
  have inRange : trainInCommand.range [n, c] s = none := by
    simp only [trainInCommand, arg]
    refine if_neg ?_
    simp
    omega
  exact congrArg _ (takeCommand_ready (cmd := trainInCommand) (h := h) ready fields rfl role inRange)

theorem trainIn_owner {n c : Nat} {s : State} (empty : s.train.cars = []) :
    trainInCommand.owner [n, c] s =
      { result := clampedOr .done [(n, n), (c, max 1000 (min c 40000))]
        state := settle false (withTrain n (max 1000 (min c 40000)) s) } := by
  rw [← setpointResult_eq (by simp)]
  exact if_neg (by simp [empty])

/-- The station without its train, before the units are evaluated (07 R113). -/
def withoutTrain (s : State) : State := { s with train := { s.train with cars := [], mass := 0, overflow := 0 } }

/-- The report of a TRAIN OUT, car by car (07 R113, R114). -/
theorem trainReport_flagOut (cars : List Car) :
    trainReport (cars.map flagOut) =
      byteOf cars.length ::
        cars.flatMap (fun c =>
          beBytes 2 c.filled
            ++ [byteOf ((if c.flagAdditive || decide (c.filled < c.additive * 10) then 128 else 0)
                  + (if c.flagOver then 64 else 0)
                  + (if c.flagShort || decide (c.state = .filling) then 32 else 0))]) := by
  have bits : ∀ (b : Bool) (v : Nat), bit b * v = if b then v else 0 := by
    intro b v
    cases b <;> simp [bit]
  unfold trainReport flagOut
  rw [List.length_map, List.flatMap_map]
  simp only [bits]

/-- Settles O35. -/
theorem trainInAndOut : Obligations.TrainInAndOut := by
  unfold Obligations.TrainInAndOut
  refine ⟨fun h n c s low high hc ready role cars => ?_, fun h n c s low high hc ready role empty => ?_,
    fun h s ready role => ?_⟩
  · have busy : trainInCommand.owner [n, c] s = refuse .busy s := if_pos (by simp [cars])
    rw [exec_trainIn low high hc h ready role, busy, answer_refuse h 17 (by simp)]
  · refine ⟨_, exec_trainIn low high hc h ready role, ?_⟩
    rw [trainIn_owner empty, ← newTrain_eq low]
    exact ⟨frame_answer h 17 (settle_frame false (withTrain n _ s)),
      answered_answer h 17 _ (evalKeeps_settle false (withTrain n _ s)).queue⟩
  · have running : (withoutTrain s).running = true := running_of_ready ready
    have run : exec (.trainOut h []) s =
        .next (answer h 18
          { result := .done, state := settle false (withoutTrain s)
            data := [trainReport (s.train.cars.map flagOut)], always := true }) :=
      congrArg _ (takeCommand_ready (cmd := trainOutCommand) (h := h) ready rfl rfl role rfl)
    have follows := paceFollows_at_end (lim := false) running
    have base := base_settle false (withoutTrain s)
    refine ⟨_, run, frame_answer h 18 (settle_frame false (withoutTrain s)), ?_, ?_⟩
    · rw [answer_train]
      dsimp only
      obtain ⟨grade, _⟩ := follows ((running_settle _ _).trans running) (by rw [cfg_of_base base]; exact role)
      have cars : (settle false (withoutTrain s)).train.cars = [] := congrArg Base.cars base
      rw [grade, cars]
      simp [freeCapacity, gradeOn]
    · rw [← trainReport_flagOut]
      exact sent_always h 18 _ _

/-! ### SET PACE LEVELS -/

/-- The station with the values of a SET PACE LEVELS, before its timer is judged on them (07 R119). -/
def withLevels (hold slow belt : Nat) (s : State) : State :=
  { s with
    train := { s.train with holdLevel := hold, slowLevel := slow }
    screw := { s.screw with beltTime := belt } }

/-- The station with the values of a SET PACE LEVELS, before the units are evaluated (07 R119, 06 R102). -/
def levelsJudged (hold slow belt : Nat) (s : State) : State :=
  match s.screw.beltStart with
  | some t => if reached s t belt then beltSilent (withLevels hold slow belt s) else withLevels hold slow belt s
  | none => withLevels hold slow belt s

theorem setPaceLevels_owner (a b c : Nat) (s : State) :
    setPaceLevelsCommand.owner [a, b, c] s =
      { result :=
          clampedOr .done [(a, min a 200000), (b, max (min b 200000) (min a 200000)), (c, max 5 (min c 120))]
        state :=
          settle false
            (levelsJudged (min a 200000) (max (min b 200000) (min a 200000)) (max 5 (min c 120)) s) } := by
  rw [← setpointResult_eq (by simp)]
  have hold : clamp 0 200000 a = min a 200000 := by simp [clamp]
  have slow : clamp 0 200000 b = min b 200000 := by simp [clamp]
  unfold levelsJudged
  rw [← hold, ← slow]
  rfl

/-- The belt-silence timer runs and its start reaches a belt time (06 R102). -/
def silenceDue (belt : Nat) (s : State) : Bool :=
  match s.screw.beltStart with
  | some t0 => decide (t0 + belt * 1000 ≤ s.clock.now)
  | none => false

theorem base_levelsJudged (hold slow belt : Nat) (s : State) :
    baseOf (levelsJudged hold slow belt s) =
      { baseOf s with
        holdLevel := hold, slowLevel := slow, beltTime := belt
        beltSilent := s.train.reasons.beltSilent || silenceDue belt s } := by
  unfold levelsJudged silenceDue
  cases start : s.screw.beltStart with
  | none => simp [withLevels, baseOf]
  | some t0 =>
    dsimp only
    by_cases due : t0 + belt * 1000 ≤ s.clock.now
    · rw [if_pos (by simp [reached, due])]
      simp [due, beltSilent, withLevels, baseOf]
    · rw [if_neg (by simp [reached, due])]
      simp [due, withLevels, baseOf]

theorem levelsJudged_keeps (hold slow belt : Nat) (s : State) :
    ringOf (levelsJudged hold slow belt s) = ringOf s ∧ (levelsJudged hold slow belt s).erector = s.erector
      ∧ (levelsJudged hold slow belt s).bus = s.bus := by
  unfold levelsJudged
  split
  · split <;> exact ⟨rfl, rfl, rfl⟩
  · exact ⟨rfl, rfl, rfl⟩

/-- Settles O36. -/
theorem paceLevelsSet : Obligations.PaceLevelsSet := by
  unfold Obligations.PaceLevelsSet
  intro h a b c s ha hb hc ready role
  have fields : splitFields [3, 3, 1] (beBytes 3 a ++ beBytes 3 b ++ beBytes 1 c) = some [a, b, c] :=
    splitFields_three ha hb hc
  have taken := takeCommand_ready (cmd := setPaceLevelsCommand) (h := h) ready fields rfl role rfl
  rw [setPaceLevels_owner] at taken
  have base := base_levelsJudged (min a 200000) (max (min b 200000) (min a 200000)) (max 5 (min c 120)) s
  obtain ⟨ring, erector, bus⟩ :=
    levelsJudged_keeps (min a 200000) (max (min b 200000) (min a 200000)) (max 5 (min c 120)) s
  generalize levelsJudged (min a 200000) (max (min b 200000) (min a 200000)) (max 5 (min c 120)) s = e at *
  have kept := (evalKeeps_settle false e).queue
  rw [bus] at kept
  have run : exec (.setPaceLevels h (beBytes 3 a ++ beBytes 3 b ++ beBytes 1 c)) s = .next (answer h 19 _) :=
    congrArg Host.Outcome.next taken
  refine ⟨_, run, ?_, fun free => ?_, answered_answer h 19 _ kept⟩
  · rw [base_answer]
    exact (base_settle false e).trans base
  · rw [ring_answer, ← ring]
    exact ring_settle false (by rw [erector]; exact free)

/-! ### SET FACE PRESSURE -/

/-- The station with the values of a SET FACE PRESSURE, before the units are evaluated (06 R105). -/
def withFace (p b g : Nat) (s : State) : State :=
  { s with screw := { s.screw with target := some (min p 600), band := max 5 (min b 100), gain := min g 100 } }

theorem setFacePressure_owner (p b g : Nat) (s : State) :
    setFacePressureCommand.owner [p, b, g] s =
      { result := clampedOr .done [(p, min p 600), (b, max 5 (min b 100)), (g, min g 100)]
        state := settle false (withFace p b g s) } := by
  rw [← setpointResult_eq (by simp)]
  simp [setFacePressureCommand, withFace, clamp, arg]

theorem exec_setFacePressure {p b g : Nat} (hp : p < 65536) (hb : b < 256) (hg : g < 256) (h : CmdHead) {s : State}
    (ready : s.life = .ready) (role : s.cfg.roles.screw = true) :
    exec (.setFacePressure h (beBytes 2 p ++ beBytes 1 b ++ beBytes 1 g)) s =
      .next (answer h 15
        { result := clampedOr .done [(p, min p 600), (b, max 5 (min b 100)), (g, min g 100)]
          state := settle false (withFace p b g s) }) := by
  have fields : splitFields [2, 1, 1] (beBytes 2 p ++ beBytes 1 b ++ beBytes 1 g) = some [p, b, g] :=
    splitFields_three hp hb hg
  have taken := takeCommand_ready (cmd := setFacePressureCommand) (h := h) ready fields rfl role rfl
  rw [setFacePressure_owner] at taken
  exact congrArg _ taken

/-! ### The chamber pressure cell -/

/-- The station with a chamber reading taken, before its watches (01 R7). -/
def withChamber (r : Reading) (s : State) : State := { s with inputs := { s.inputs with chamber := r } }

/-- The watches of a chamber reading (03 R52, R53). -/
def chamberWatched (s : State) : State :=
  if (crownSet s).contains s.own then decideRetract (marginWatch s) else marginWatch s

theorem exec_chamberPressureReading {r : Reading} {s : State} (running : s.running = true)
    (fits : readingFits 1000 r = true) :
    exec (.chamberPressureReading r) s = .next (settle false (chamberWatched (withChamber r s))) := by
  have taken : r.map (fun v => min v 1000) = r := by
    cases r with
    | none => rfl
    | some v =>
      have low : v ≤ 1000 := by simpa [readingFits] using fits
      simp [low]
  have ends : ∀ q, r.map (fun v => min v 1000) = q → chamberPressureReading r s =
      settle false
        (if (crownSet (withChamber q s)).contains s.own then decideRetract (marginWatch (withChamber q s))
         else marginWatch (withChamber q s)) := fun q same => by
    subst same
    exact if_pos (by exact running)
  exact congrArg Host.Outcome.next (ends r taken)

theorem base_chamberWatched (s : State) : baseOf (chamberWatched s) = baseOf s := by
  unfold chamberWatched
  split
  · rw [base_decideRetract, base_marginWatch]
  · exact base_marginWatch s

theorem ring_marginWatch (s : State) : ringOf (marginWatch s) = ringOf s := by
  unfold marginWatch
  split
  · split
    · rfl
    · split
      · exact ring_abortWithdrawal s
      · rfl
      · rfl
  · rfl

theorem erector_marginWatch (s : State) : (marginWatch s).erector = s.erector := by
  unfold marginWatch
  split
  · split
    · rfl
    · split
      · exact erector_abortWithdrawal s
      · rfl
      · rfl
  · rfl

theorem chamberWatched_keeps (s : State) :
    ringOf (chamberWatched s) = ringOf s ∧ (chamberWatched s).erector = s.erector := by
  unfold chamberWatched
  split
  · exact ⟨(ring_decideRetract _).trans (ring_marginWatch s), (erector_decideRetract _).trans (erector_marginWatch s)⟩
  · exact ⟨ring_marginWatch s, erector_marginWatch s⟩

/-- The withdrawal that a breach undoes, with its retry wait begun (03 R53, R54). -/
theorem marginWatch_breached {s : State} (out : withdrawn s = true) (build : s.build.state ≠ .ringOpen)
    (pending : currentEntryState s = some .pending) (breached : marginMet s = false) :
    marginWatch s = abortWithdrawal s := by
  unfold marginWatch
  rw [if_pos (by simp [out, build]), if_neg (by simp [breached]), pending]

/-- A retry wait keeps the group from withdrawing (03 R54). -/
theorem decideRetract_waiting {s : State} {c : Nat} (wait : s.build.retry = some c) : decideRetract s = s := by
  unfold decideRetract
  exact if_neg (by simp [wait])

theorem abortWithdrawal_mode {s : State} (out : withdrawn s = true) :
    (abortWithdrawal s).thrust.mode = if s.cfg.pressForce ≤ s.inputs.force then .hold else .pressing := by
  have pressed := pressIfWithdrawn_mode out
  unfold pressIfWithdrawn at pressed
  rw [if_pos out] at pressed
  exact pressed

theorem abortWithdrawal_state (s : State) : (abortWithdrawal s).build.state = s.build.state := by
  have pressed : (pressRequest s).build.state = s.build.state := by
    rcases pressRequest_cases s with e | e | ⟨_, e⟩
    · rw [e]
    · rw [e]; simp
    · rw [e]; simp
  exact pressed

theorem chamberWatched_breached {s : State} (out : withdrawn s = true) (build : s.build.state ≠ .ringOpen)
    (pending : currentEntryState s = some .pending) (breached : marginMet s = false) :
    chamberWatched s = abortWithdrawal s := by
  have waits : decideRetract (abortWithdrawal s) = abortWithdrawal s := decideRetract_waiting (c := 0) rfl
  unfold chamberWatched
  rw [marginWatch_breached out build pending breached, waits, ite_self]

/-- Settles O32. -/
theorem facePressureSetAndRead : Obligations.FacePressureSetAndRead := by
  unfold Obligations.FacePressureSetAndRead
  refine ⟨fun h p b g s hp hb hg ready role => ?_, fun r s running fits => ?_⟩
  · have alive : (withFace p b g s).running = true := running_of_ready ready
    have base := base_settle false (withFace p b g s)
    refine ⟨_, exec_setFacePressure hp hb hg h ready role, frame_answer h 15 (settle_frame false (withFace p b g s)),
      ?_, answered_answer h 15 _ (evalKeeps_settle false (withFace p b g s)).queue⟩
    rw [answer_train]
    obtain ⟨_, _, noTarget, _⟩ :=
      paceFollows_at_end (lim := false) alive ((running_settle _ _).trans alive) (by rw [cfg_of_base base]; exact role)
    have target : (settle false (withFace p b g s)).screw.target = some (min p 600) := congrArg Base.faceTarget base
    rw [noTarget, target]
    rfl
  · have base : baseOf (settle false (chamberWatched (withChamber r s))) = baseOf (withChamber r s) :=
      (base_settle _ _).trans (base_chamberWatched _)
    obtain ⟨ring, erector⟩ := chamberWatched_keeps (withChamber r s)
    have alive : (chamberWatched (withChamber r s)).running = true :=
      (running_of_base (base_chamberWatched (withChamber r s))).trans running
    refine ⟨_, exec_chamberPressureReading running fits, base, fun free => ?_, fun role => ?_,
      fun absent out build pending breached => ?_⟩
    · rw [ring_settle false (by rw [erector]; exact free), ring]
      rfl
    · obtain ⟨_, blind, _⟩ :=
        paceFollows_at_end (lim := false) alive ((running_settle _ _).trans alive) (by rw [cfg_of_base base]; exact role)
      exact blind
    · have watched := chamberWatched_breached (s := withChamber r s) out build pending breached
      rw [watched] at alive ⊢
      have there : (abortWithdrawal (withChamber r s)).cfg.roles.erector = false := by
        rw [cfg_of_base (base_abortWithdrawal _)]; exact absent
      have mode := abortWithdrawal_mode (s := withChamber r s) out
      have state := abortWithdrawal_state (withChamber r s)
      have plan := ((settle_frame false (abortWithdrawal (withChamber r s))).2.2 there).1
      refine ⟨?_, congrArg Build.retry plan⟩
      rw [settle_mode_in_build alive false there (by rw [state]; exact build), mode]
      · rfl
      · rw [mode]
        split <;> simp

end Sys2Proof.Machine
end

section
/-! PROOF. The drive as an event ends, and START and STOP CUTTERHEAD (05 R80 to R85). -/

namespace Sys2Proof.Machine

open Sys2Proof

/-! ### The drive as an event ends -/

/-- In an open ring an event leaves a drive whose start conditions hold as its own rules left it (05 R80). -/
theorem settle_drive_fit {lim : Bool} {e : State} (running : e.running = true) (ringOpen : e.build.state = .ringOpen)
    (fit : driveEval e = e) : (settle lim e).drive = e.drive := by
  have first : (unitsEval lim e).drive = e.drive := by rw [unitsEval_drive, fit]
  obtain ⟨x, b, shape⟩ := erectorEval_shape_ringOpen (s := unitsEval lim e) (by rw [unitsEval_build_state, ringOpen])
  have surroundings : SameSurroundings (unitsEval lim e) e := by
    have same := unitsEval_surroundings lim e
    rwa [fit] at same
  have still : driveEval (erectorEval (unitsEval lim e)) = erectorEval (unitsEval lim e) := by
    have same : SameSurroundings (erectorEval (unitsEval lim e)) (unitsEval lim e) := by
      rw [shape]; exact ⟨rfl, rfl, rfl, rfl, rfl, rfl, rfl⟩
    have conditions := startConditions_congr (same.trans surroundings)
    have state := (same.trans surroundings).driveState
    rw [driveEval_eq_self_iff, conditions, state]
    exact (driveEval_eq_self_iff e).1 fit
  have second : (unitsAtEnd lim e).drive = e.drive := by
    unfold unitsAtEnd
    rw [unitsEval_drive, still, shape]
    exact first
  rw [settle_shape running]
  exact second

/-- Of a drive that is neither STARTING nor RUNNING an evaluation changes the ring's figures alone, and those at a ring
open (05 R80, R91). -/
theorem Changes.drive_rests {s t : State} (h : Changes .eval s t)
    (rests : s.drive.state ≠ .starting ∧ s.drive.state ≠ .running) :
    t.drive = { s.drive with accumulator := t.drive.accumulator, peakTorque := t.drive.peakTorque } := by
  induction h with
  | refl => rfl
  | tail _ change ih =>
    cases change
    case stop turns =>
      rw [ih] at turns
      exact absurd turns (by simpa using rests)
    case openUnits =>
      change { (State.drive _) with accumulator := 0, peakTorque := 0 } = _
      rw [ih]
      rfl
    case screwState => obtain ⟨u, e⟩ := setScrew_eq (screwChoice _) _; rw [e]; exact ih
    all_goals exact ih

theorem settle_drive_rests {lim : Bool} {e : State} (rests : e.drive.state ≠ .starting ∧ e.drive.state ≠ .running) :
    (settle lim e).drive =
      { e.drive with
        accumulator := (settle lim e).drive.accumulator, peakTorque := (settle lim e).drive.peakTorque } :=
  (changes_settle lim e).drive_rests rests

theorem settle_drive_rests_of_seq {lim : Bool} {e : State}
    (rests : e.drive.state ≠ .starting ∧ e.drive.state ≠ .running) (waits : e.erector.seq ≠ .awaitingPress) :
    (settle lim e).drive = e.drive := by
  have ring := ring_settle lim waits
  have accumulator : (settle lim e).drive.accumulator = e.drive.accumulator := congrArg RingPart.accumulator ring
  have peak : (settle lim e).drive.peakTorque = e.drive.peakTorque := congrArg RingPart.peakTorque ring
  rw [settle_drive_rests rests, accumulator, peak]

theorem driveEnable_at_end {lim : Bool} {e : State} (running : e.running = true) :
    (settle lim e).out.driveEnable =
      decide ((settle lim e).drive.state = .starting ∨ (settle lim e).drive.state = .running
        ∨ ((settle lim e).drive.state = .stopping ∧ 0 < (settle lim e).drive.command)) := by
  have follows := outputsFollow_at_end (lim := lim) running
  unfold OutputsFollow at follows
  rw [if_pos ((running_settle lim e).trans running)] at follows
  exact follows.2.1

/-- A station with a drive that is not RUNNING does not advance (02 R32). -/
theorem settle_not_advance {lim : Bool} {e : State} (running : e.running = true)
    (present : (settle lim e).drive.state ≠ .absent) (idle : (settle lim e).drive.state ≠ .running) :
    (settle lim e).thrust.mode ≠ .advance := by
  intro advance
  have follows := holdsFollow_at_end (lim := lim) running
  have alive := (running_settle lim e).trans running
  have empty := follows.empty_of_advance alive advance
  unfold HoldsFollow at follows
  rw [if_pos alive] at follows
  obtain ⟨_, _, _, _, cutterhead, _⟩ := follows
  rw [if_neg present] at cutterhead
  have free : (settle lim e).thrust.holds.cutterhead = false := by
    simp only [holdsEmpty, holdFlags, List.any_cons, List.any_nil, id_eq, Bool.not_eq_true', Bool.or_eq_false_iff]
      at empty
    tauto
  rw [free] at cutterhead
  exact idle (by simpa using cutterhead.symm)

@[simp] theorem answer_out (h : CmdHead) (n : Nat) (a : Answer) : (answer h n a).out = a.state.out := by
  obtain ⟨q, shape⟩ := answer_shape h n a
  rw [shape]

/-! ### START CUTTERHEAD -/

theorem directionOf_bit (ccw : Bool) : directionOf (if ccw then 1 else 0) = if ccw then .ccw else .cw := by
  cases ccw <;> rfl

theorem exec_startCutterhead {v : Nat} {ccw : Bool} (hv : v < 65536) (h : CmdHead) {s : State} (ready : s.life = .ready)
    (role : s.cfg.roles.drive = true) :
    exec (.startCutterhead h (beBytes 2 v ++ beBytes 1 (if ccw then 1 else 0))) s =
      .next (answer h 12
        (startOwner (min v 450) (if ccw then .ccw else .cw) (clampedOr .done [(v, min v 450)]) s)) := by
  have low : (if ccw then 1 else 0 : Nat) ≤ 1 := by cases ccw <;> simp
  have fields : splitFields [2, 1] (beBytes 2 v ++ beBytes 1 (if ccw then 1 else 0)) =
      some [v, if ccw then 1 else 0] := splitFields_two hv (show (if ccw then 1 else 0 : Nat) < 256 by omega)
  have inRange : startCutterheadCommand.range [v, if ccw then 1 else 0] s = none :=
    if_neg (by simpa [arg] using low)
  have taken := takeCommand_ready (cmd := startCutterheadCommand) (h := h) ready fields rfl role inRange
  have owner : startCutterheadCommand.owner [v, if ccw then 1 else 0] s =
      startOwner (min v 450) (if ccw then .ccw else .cw) (clampedOr .done [(v, min v 450)]) s := by
    rw [← setpointResult_eq (by simp), ← directionOf_bit]
    simp [startCutterheadCommand, clamp, arg]
  rw [owner] at taken
  exact congrArg _ taken

/-- The operand of the stored direction (05 R81). -/
theorem storedDirection_eq (d : Direction) :
    (if d = .cw then 0 else 1 : Nat) = (if decide (d = .ccw) then 1 else 0)
      ∧ d = if decide (d = .ccw) then .ccw else .cw := by
  cases d <;> simp

section
variable {v : Nat} {dir : Direction} {taken : Result} {s : State}

/-- A drive at rest, and a direction that may be started in (05 R81). -/
def mayStart (dir : Direction) (s : State) : Prop :=
  (s.drive.state = .off ∧ s.inputs.speed < 5)
    ∨ ((s.drive.state = .off ∨ s.drive.state = .stopping) ∧ s.drive.direction = dir)

theorem startOwner_may (may : mayStart dir s) :
    startOwner v dir taken s =
      if v = 0 then { result := taken, state := s }
      else if !startConditions s then refuse .notReady s
      else { result := taken, state := settle false (startDrive v dir s) } := by
  have free : (decide (dir ≠ s.drive.direction) && (decide (s.drive.state = .stopping) || decide (5 ≤ s.inputs.speed))) =
      false := by
    rcases may with ⟨off, slow⟩ | ⟨_, same⟩
    · have low : ¬5 ≤ s.inputs.speed := by omega
      simp [off, low]
    · simp [same]
  have rest : s.drive.state = .off ∨ s.drive.state = .stopping := by
    rcases may with ⟨off, _⟩ | ⟨rest, _⟩
    · exact .inl off
    · exact rest
  unfold startOwner
  rcases rest with state | state
  · rw [state] at free ⊢
    exact if_neg (by simpa using free)
  · rw [state] at free ⊢
    exact if_neg (by simpa using free)

theorem startOwner_busy
    (busy : s.drive.state = .stalled
      ∨ (s.drive.direction ≠ dir
          ∧ (s.drive.state = .starting ∨ s.drive.state = .running ∨ s.drive.state = .stopping
              ∨ (s.drive.state = .off ∧ 5 ≤ s.inputs.speed)))) :
    startOwner v dir taken s = refuse .busy s := by
  unfold startOwner
  rcases busy with state | ⟨against, state | state | state | ⟨state, fast⟩⟩
  · rw [state]
  · rw [state]; exact if_pos (Ne.symm against)
  · rw [state]; exact if_pos (Ne.symm against)
  · rw [state]; exact if_pos (by simpa using Ne.symm against)
  · rw [state]; exact if_pos (by simpa [fast] using Ne.symm against)

theorem startOwner_turning (turning : s.drive.state = .starting ∨ s.drive.state = .running) :
    startOwner v s.drive.direction taken s =
      if v = 0 then { result := taken, state := settle false (stopDrive { s with drive := { s.drive with target := 0 } }) }
      else { result := taken, state := settle false { s with drive := { s.drive with target := v } } } := by
  unfold startOwner
  rcases turning with state | state
  · rw [state]; exact if_neg (by simp)
  · rw [state]; exact if_neg (by simp)

end

/-- A started drive ends the event STARTING (05 R82). -/
theorem settle_startDrive {v : Nat} {dir : Direction} {s : State} (ready : s.life = .ready)
    (fit : startConditions s = true) :
    (settle false (startDrive v dir s)).drive = (startDrive v dir s).drive
      ∧ (settle false (startDrive v dir s)).out.driveEnable = true := by
  have alive : (startDrive v dir s).running = true := running_of_ready ready
  have stays : driveEval (startDrive v dir s) = startDrive v dir s :=
    (driveEval_eq_self_iff _).2 fun _ => fit
  have drive := settle_drive_fit (lim := false) alive ((startConditions_iff s).1 fit).1 stays
  refine ⟨drive, ?_⟩
  rw [driveEnable_at_end alive, drive]
  simp [startDrive]

/-- Settles O28: the drive state, the direction and the speed decide the row of the table of 05 R81. -/
theorem cutterheadStartedAndStopped : Obligations.CutterheadStartedAndStopped := by
  unfold Obligations.CutterheadStartedAndStopped
  have stored : ∀ (h : CmdHead) (v : Nat) (s : State), s.life = .ready → s.cfg.roles.drive = true → v < 65536 →
      exec (.startCutterhead h (beBytes 2 v ++ beBytes 1 (if s.drive.direction = .cw then 0 else 1))) s =
        .next (answer h 12 (startOwner (min v 450) s.drive.direction (clampedOr .done [(v, min v 450)]) s)) := by
    intro h v s ready role hv
    obtain ⟨operand, direction⟩ := storedDirection_eq s.drive.direction
    rw [operand, exec_startCutterhead hv h ready role, ← direction]
  have starts : ∀ (h : CmdHead) (v : Nat) (dir : Direction) (s : State), s.life = .ready → 0 < v → mayStart dir s →
      startConditions s = true →
      startOwner (min v 450) dir (clampedOr .done [(v, min v 450)]) s =
        { result := clampedOr .done [(v, min v 450)], state := settle false (startDrive (min v 450) dir s) } := by
    intro h v dir s ready some_speed may fit
    rw [startOwner_may may, if_neg (by omega), if_neg (by simp [fit])]
  refine ⟨?_, ?_, ?_, ?_, ?_, ?_, ?_, ?_⟩
  · intro h v ccw s ready role some_speed hv off direction ringOpen peers spoil trips seeing
    have fit : startConditions s = true := (startConditions_iff s).2 ⟨ringOpen, peers, spoil, trips, seeing⟩
    have may : mayStart (if ccw then .ccw else .cw) s :=
      direction.elim (fun same => .inr ⟨.inl off, same⟩) (fun slow => .inl ⟨off, slow⟩)
    obtain ⟨drive, enable⟩ := settle_startDrive (v := min v 450) (dir := if ccw then .ccw else .cw) ready fit
    have frame := settle_frame false (startDrive (min v 450) (if ccw then .ccw else .cw) s)
    have started : (startDrive (min v 450) (if ccw then .ccw else .cw) s).drive =
        { s.drive with
          state := .starting, target := min v 450, direction := if ccw then .ccw else .cw, trim := 0
          command := min s.inputs.speed 450 } := by
      simp [startDrive, driveEnableOf, off]
    refine ⟨_, exec_startCutterhead hv h ready role, ?_⟩
    rw [starts h v _ s ready some_speed may fit]
    refine ⟨?_, ?_, ?_, answered_answer h 12 _ (evalKeeps_settle false (startDrive _ _ s)).queue⟩
    · rw [answer_drive]; exact drive.trans started
    · rw [answer_out]; exact enable
    · rw [answer_drive]
      dsimp only
      rw [drive]
      exact frame_answer h 12 frame
  · intro h v s ready role some_speed hv stopping ringOpen peers spoil trips seeing
    have fit : startConditions s = true := (startConditions_iff s).2 ⟨ringOpen, peers, spoil, trips, seeing⟩
    have may : mayStart s.drive.direction s := .inr ⟨.inr stopping, rfl⟩
    obtain ⟨drive, enable⟩ := settle_startDrive (v := min v 450) (dir := s.drive.direction) ready fit
    have frame := settle_frame false (startDrive (min v 450) s.drive.direction s)
    have started : (startDrive (min v 450) s.drive.direction s).drive =
        { s.drive with
          state := .starting, target := min v 450, trim := 0
          command := if s.drive.command = 0 then min s.inputs.speed 450 else s.drive.command } := by
      unfold startDrive
      by_cases zero : s.drive.command = 0
      · simp [driveEnableOf, stopping, zero]
      · simp [driveEnableOf, stopping, zero, Nat.pos_of_ne_zero zero]
    refine ⟨_, stored h v s ready role hv, ?_⟩
    rw [starts h v _ s ready some_speed may fit]
    refine ⟨?_, ?_, ?_, answered_answer h 12 _ (evalKeeps_settle false (startDrive _ _ s)).queue⟩
    · rw [answer_drive]; exact drive.trans started
    · rw [answer_out]; exact enable
    · rw [answer_drive]
      dsimp only
      rw [drive]
      exact frame_answer h 12 frame
  · intro h ccw s ready role may
    rw [exec_startCutterhead (v := 0) (by omega) h ready role, startOwner_may may, if_pos (by simp)]
    exact congrArg _ (answer_done h 12 s)
  · intro h v ccw s ready role some_speed hv may unfit
    have fails : startConditions s = false := by
      rw [Bool.eq_false_iff, ne_eq, startConditions_iff]
      rintro ⟨ringOpen, peers, spoil, trips, seeing⟩
      rcases unfit with h | h | h | h | h
      · exact h ringOpen
      · simp [peers] at h
      · simp [h] at spoil
      · exact h trips
      · simp [seeing] at h
    rw [exec_startCutterhead hv h ready role, startOwner_may may, if_neg (by omega), if_pos (by simp [fails]),
      answer_refuse h 12 (by simp)]
  · intro h v ccw s ready role hv busy
    rw [exec_startCutterhead hv h ready role, startOwner_busy busy, answer_refuse h 12 (by simp)]
  · intro h v s ready role hv turning
    refine ⟨_, stored h v s ready role hv, ?_⟩
    rw [startOwner_turning turning]
    by_cases zero : v = 0
    · subst zero
      have frame := settle_frame false (stopDrive { s with drive := { s.drive with target := 0 } })
      have drive := settle_drive_rests (lim := false)
        (e := stopDrive { s with drive := { s.drive with target := 0 } }) (by simp [stopDrive])
      refine ⟨frame_answer h 12 frame, fun _ => ?_,
        answered_answer h 12 _ (evalKeeps_settle false (stopDrive { s with drive := { s.drive with target := 0 } })).queue⟩
      rw [answer_drive]
      exact ⟨congrArg Drive.state drive, congrArg Drive.trim drive⟩
    · have speed : min v 450 ≠ 0 := by omega
      rw [if_neg speed, if_neg zero, if_neg zero]
      exact ⟨frame_answer h 12 (settle_frame false _), fun none => absurd none zero,
        answered_answer h 12 _ (evalKeeps_settle false { s with drive := { s.drive with target := min v 450 } }).queue⟩
  · intro h s ready role turning
    have stops : stopCutterheadCommand.owner [] s = done (settle false (stopDrive s)) :=
      if_pos (by simpa using turning)
    have run : exec (.stopCutterhead h []) s = .next (answer h 13 (done (settle false (stopDrive s)))) := by
      rw [← stops]
      exact congrArg _ (takeCommand_ready (cmd := stopCutterheadCommand) (h := h) ready rfl rfl role rfl)
    have drive := settle_drive_rests (lim := false) (e := stopDrive s) (by simp [stopDrive])
    have state : (settle false (stopDrive s)).drive.state = .stopping := congrArg Drive.state drive
    have alive : (stopDrive s).running = true := running_of_ready ready
    refine ⟨_, run, ?_, ?_, ?_, frame_answer h 13 (settle_frame false (stopDrive s)),
      answered_done_settle h 13 (queueKept_same rfl)⟩
    · rw [answer_drive]; exact state
    · rw [answer_drive]; exact congrArg Drive.trim drive
    · rw [answer_thrust]
      exact settle_not_advance alive (by rw [state]; simp) (by rw [state]; simp)
  · intro h s ready role starting runs
    have stays : stopCutterheadCommand.owner [] s = done s := if_neg (by simp [starting, runs])
    have run := takeCommand_ready (cmd := stopCutterheadCommand) (h := h) (args := []) (ops := []) ready rfl rfl role rfl
    rw [stays] at run
    exact congrArg _ (run.trans (answer_done h 13 s))

end Sys2Proof.Machine
end

section
/-! PROOF. What an erector sequence that does not wait to send SET leaves alone as an event ends: everything but the
erector and build unit, the group and the queue (04 R68 to R73). -/

namespace Sys2Proof.Machine

open Sys2Proof

/-! ### The station apart from erector unit, build, group and queue -/

/-- A station with erector unit, build, thrust group and bus interface, and the record's build part, left out. -/
def restOf (s : State) : State :=
  { s with
    erector := State.reset.erector, build := State.reset.build, thrust := State.reset.thrust, bus := State.reset.bus
    records := { s.records with current := { s.records.current with build := none } } }

section
variable {s t : State}

theorem drive_of_rest (h : restOf t = restOf s) : t.drive = s.drive := by
  have same := congrArg State.drive h; exact same
theorem grout_of_rest (h : restOf t = restOf s) : t.grout = s.grout := by
  have same := congrArg State.grout h; exact same
theorem screw_of_rest (h : restOf t = restOf s) : t.screw = s.screw := by
  have same := congrArg State.screw h; exact same
theorem view_of_rest (h : restOf t = restOf s) : t.view = s.view := by
  have same := congrArg State.view h; exact same
theorem inputs_of_rest (h : restOf t = restOf s) : t.inputs = s.inputs := by
  have same := congrArg State.inputs h; exact same
theorem cfg_of_rest (h : restOf t = restOf s) : t.cfg = s.cfg := by
  have same := congrArg State.cfg h; exact same
theorem own_of_rest (h : restOf t = restOf s) : t.own = s.own := by
  have same := congrArg State.own h; exact same
theorem life_of_rest (h : restOf t = restOf s) : t.life = s.life := by
  have same := congrArg State.life h; exact same
theorem spoil_of_rest (h : restOf t = restOf s) : t.records.current.spoil = s.records.current.spoil :=
  congrArg (fun u => u.records.current.spoil) h
theorem groutPart_of_rest (h : restOf t = restOf s) : t.records.current.grout = s.records.current.grout :=
  congrArg (fun u => u.records.current.grout) h

end

@[simp] theorem rest_enqueue (n : TxNotice) (s : State) : restOf (enqueue n s) = restOf s := rfl
@[simp] theorem rest_setMode (m : GroupMode) (s : State) : restOf (setMode m s) = restOf s := rfl
@[simp] theorem rest_setSeq (q : SeqState) (s : State) : restOf (setSeq q s) = restOf s := rfl
@[simp] theorem rest_raiseMismatch (s : State) : restOf (raiseMismatch s) = restOf s := rfl
@[simp] theorem rest_moveIndex (i : Nat) (s : State) : restOf (moveIndex i s) = restOf s := rfl
@[simp] theorem rest_setEntryState (e : EntryState) (s : State) : restOf (setEntryState e s) = restOf s := rfl
@[simp] theorem rest_onBuildPart (f : BuildPart → BuildPart) (s : State) : restOf (onBuildPart f s) = restOf s := rfl
@[simp] theorem rest_standDown (s : State) : restOf (standDown s) = restOf s := rfl

@[simp] theorem rest_pressRequest (s : State) : restOf (pressRequest s) = restOf s := by
  rcases pressRequest_cases s with e | e | ⟨_, e⟩ <;> rw [e] <;> rfl

@[simp] theorem rest_pressIfWithdrawn (s : State) : restOf (pressIfWithdrawn s) = restOf s := by
  rcases pressIfWithdrawn_cases s with e | e | e <;> rw [e] <;> rfl

@[simp] theorem rest_abortWithdrawal (s : State) : restOf (abortWithdrawal s) = restOf s := rest_pressRequest s

@[simp] theorem rest_decideRetract (s : State) : restOf (decideRetract s) = restOf s := by
  rcases decideRetract_cases s with e | ⟨_, _, _, _, _, _, _, _, e⟩ <;> rw [e]; rfl

@[simp] theorem rest_suspendBuild (s : State) : restOf (suspendBuild s) = restOf s := by
  rcases suspendBuild_cases s with ⟨_, e⟩ | ⟨_, p, rfl | rfl, e⟩
  · rw [e]
  · rw [e]; rfl
  · rw [e]; exact rest_pressIfWithdrawn s

@[simp] theorem rest_pressPassed (s : State) : restOf (pressPassed s) = restOf s := by
  rcases pressPassed_cases s with e | ⟨_, _, _, _, e⟩ <;> rw [e]; rfl

@[simp] theorem rest_judgeEmpty (s : State) : restOf (judgeEmpty s) = restOf s := by
  unfold judgeEmpty
  split
  · rw [rest_suspendBuild, rest_raiseMismatch]
  · rfl

@[simp] theorem rest_catchUp (j : Nat) (s : State) : restOf (catchUp j s) = restOf s := by simp [catchUp]

@[simp] theorem rest_releaseEntry (s : State) : restOf (releaseEntry s) = restOf s := by
  unfold releaseEntry; dsimp only
  repeat' split
  all_goals simp

@[simp] theorem rest_placeEntry (s : State) : restOf (placeEntry s) = restOf s := by
  unfold placeEntry; dsimp only
  split
  all_goals simp

/-- Of the actions only SET reaches beyond the build, by the ring it closes (03 R58 to R61). -/
theorem rest_applyAction {a : StepAction} (other : a ≠ .set) (s : State) : restOf (applyAction a s) = restOf s := by
  unfold applyAction
  split
  · rfl
  · split
    · contradiction
    all_goals simp

theorem rest_issueStep {a : StepAction} (other : a ≠ .set) (w : Working) (s : State) :
    restOf (issueStep a w s) = restOf s := by
  unfold issueStep takeStep judgeStep
  rw [rest_decideRetract]
  repeat' split
  · rfl
  · rfl
  · rfl
  · rfl
  · rfl
  · exact rest_applyAction other _
  · rw [rest_applyAction other, rest_catchUp]; rfl

theorem rest_leaveStandby (s : State) : restOf (leaveStandby s) = restOf s := by
  unfold leaveStandby
  repeat' split
  all_goals rfl

theorem rest_placingTest (w : Working) (s : State) : restOf (placingTest w s) = restOf s := by
  unfold placingTest
  split
  · rfl
  · split
    · exact rest_issueStep (by simp) w (setSeq .placing s)
    · rw [rest_suspendBuild]; rfl

/-- Only a SET of the erector unit, which can close the ring, reaches beyond the build (04 R74). -/
theorem rest_seqStep {s : State} (free : ¬setDue s) : restOf (seqStep s) = restOf s := by
  have releases (q : SeqState) (w : Working) : restOf (issueStep .release w (setSeq q s)) = restOf s :=
    rest_issueStep (by simp) w (setSeq q s)
  unfold seqStep
  split
  · exact rest_leaveStandby s
  · rfl
  · split
    · rfl
    · split
      · exact rest_placingTest _ s
      · rfl
  · split
    · exact releases _ _
    · split
      · rfl
      · split
        · exact releases _ _
        · split
          · rfl
          · exact releases _ _
  · next w seq working =>
    split
    · rfl
    · split
      · next held => exact absurd ⟨seq, w, working, held⟩ free
      · rfl

theorem rest_seqSteps (n : Nat) {s : State} (free : ¬setDue s) : restOf (seqSteps n s) = restOf s := by
  induction n generalizing s with
  | zero => rfl
  | succ n ih =>
    unfold seqSteps
    split
    · exact rest_seqStep free
    · exact (ih fun due => free (setDue_of_seqStep due)).trans (rest_seqStep free)

theorem rest_erectorEval {s : State} (free : s.cfg.roles.erector = true → ¬setDue s) :
    restOf (erectorEval s) = restOf s := by
  unfold erectorEval
  split
  · next present => exact rest_seqSteps 8 (free present)
  · rfl

/-- The units find an open ring after the erector sequence exactly if they found one before. -/
theorem erectorEval_ringOpen {s : State} (free : s.cfg.roles.erector = true → ¬setDue s) :
    (erectorEval s).build.state = .ringOpen ↔ s.build.state = .ringOpen := by
  unfold erectorEval
  split
  · next present =>
    have flows : BuildFlows False s (seqSteps 8 s) := buildFlows_seqSteps 8 (free present)
    constructor
    · intro ringOpen
      by_contra inBuild
      exact flows.not_ringOpen id inBuild ringOpen
    · intro ringOpen
      rcases flows.build with same | ⟨building, _⟩ | ⟨none, _⟩
      · rw [same]; exact ringOpen
      · exact absurd (ringOpen.symm.trans building) (by simp)
      · exact none.elim
  · exact Iff.rfl

theorem not_setDue_of_seq {s : State} (waits : s.erector.seq ≠ .awaitingPress) : ¬setDue s := fun due => waits due.1

/-! ### The event's end without a SET -/

/-- Of the record the evaluation of the units can only flag PRESSURE BLIND in the spoil part (06 R101). -/
theorem unitsEval_records (lim : Bool) (s : State) :
    (unitsEval lim s).records = s.records
      ∨ (unitsEval lim s).records = (onSpoilPart (fun p => { p with pressureBlind := true }) s).records := by
  have screw : ∀ u : State, (screwEval u).records = u.records
      ∨ (screwEval u).records = (onSpoilPart (fun p => { p with pressureBlind := true }) u).records := by
    intro u
    unfold screwEval
    split
    · obtain ⟨x, shape⟩ := setScrew_eq (screwChoice (pressureBlindEval u)) (pressureBlindEval u)
      dsimp only
      rw [shape]
      change (pressureBlindEval u).records = _ ∨ (pressureBlindEval u).records = _
      unfold pressureBlindEval
      dsimp only
      split
      · exact .inr rfl
      · exact .inl rfl
    · exact .inl rfl
  have drive : (driveEval s).records = s.records := by unfold driveEval; split <;> rfl
  have train : ∀ u, (trainEval u).records = u.records := by
    intro u; unfold trainEval setPace; dsimp only
    repeat' split
    all_goals rfl
  have advance : ∀ u, (advanceEval u).records = u.records := by
    intro u; unfold advanceEval
    repeat' split
    all_goals rfl
  have units : (unitsEval lim s).records = (screwEval (driveEval s)).records := by
    unfold unitsEval
    dsimp only
    rw [advance]
    split
    · exact train _
    · exact train _
  have flagged : (onSpoilPart (fun p => { p with pressureBlind := true }) (driveEval s)).records =
      (onSpoilPart (fun p => { p with pressureBlind := true }) s).records := by
    unfold onSpoilPart
    rw [drive]
  rw [units, ← flagged, ← drive]
  exact screw (driveEval s)

theorem settle_grout {lim : Bool} {e : State} (running : e.running = true) :
    (settle lim e).grout = (injectionEval (unitsAtEnd lim e)).grout := by
  rw [settle_shape running]

section
variable {lim : Bool} {e : State} (free : e.cfg.roles.erector = true → ¬setDue (unitsEval lim e))
include free

theorem rest_worked : restOf (erectorEval (unitsEval lim e)) = restOf (unitsEval lim e) :=
  rest_erectorEval (by rw [roles_unitsEval]; exact free)

theorem grout_unitsAtEnd : (unitsAtEnd lim e).grout = e.grout := by
  unfold unitsAtEnd
  rw [unitsEval_grout, grout_of_rest (rest_worked free), unitsEval_grout]

/-- Of the record's grout part the end of an event writes the figures of the line (09 R138). -/
theorem settle_lineTripped : (settle lim e).records.current.grout.map GroutPart.lineTripped =
    e.records.current.grout.map GroutPart.lineTripped := by
  have units : ∀ u, (unitsEval lim u).records.current.grout = u.records.current.grout := by
    intro u
    rcases unitsEval_records lim u with same | flagged
    · rw [same]
    · rw [flagged]; rfl
  have shown : ∀ u, (setOutputs (syncRecord u)).records.current.grout.map GroutPart.lineTripped =
      u.records.current.grout.map GroutPart.lineTripped := by
    intro u
    change (u.records.current.grout.map _).map _ = _
    rw [Option.map_map]
    rfl
  unfold settle
  split
  · rw [shown, injectionEval_records, units, groutPart_of_rest (rest_worked free), units]
  · rfl

end

/-- A sequence that does not wait to send SET sends none as an event ends. -/
theorem free_of_seq {lim : Bool} {e : State} (waits : e.erector.seq ≠ .awaitingPress) :
    e.cfg.roles.erector = true → ¬setDue (unitsEval lim e) :=
  fun _ => not_setDue_of_seq (by rw [erector_unitsEval]; exact waits)

end Sys2Proof.Machine
end

section
/-! PROOF. SET DRIVE LIMITS, the stall, the torque and speed inputs, and the drive interval (05 R79, R83 to R91). -/

namespace Sys2Proof.Machine

open Sys2Proof

/-! ### The stall -/

/-- The drive of a station that stalls (05 R88). -/
def stalledDrive (s : State) : State :=
  { s with drive := { s.drive with state := .stalled, command := 0, trim := 0, stallStart := none } }

theorem stallDrive_eq (s : State) :
    stallDrive s = enqueue (.trip .stall) (addTrip (s.own, .stall) (stalledDrive s)) := rfl

@[simp] theorem suspendBuild_drive_eq (p : TripPair) (s : State) : (addTrip p s).drive = s.drive := by
  rcases setTrips_cases (withPair p s.view.trips) s with ⟨e, _⟩ | ⟨e, _, _⟩
  · unfold addTrip; rw [e]
  · unfold addTrip; rw [e, suspendBuild_drive]

theorem stallDrive_drive (s : State) : (stallDrive s).drive = (stalledDrive s).drive := by
  rw [stallDrive_eq]
  exact suspendBuild_drive_eq _ _

theorem base_stallDrive (s : State) :
    baseOf (stallDrive s) = baseOf (withTrips (withPair (s.own, .stall) s.view.trips) (stalledDrive s)) := by
  rw [stallDrive_eq, base_enqueue]
  exact base_addTrip _ _

/-- How an event ends in which the drive stalls (05 R88, 01 R15). -/
theorem settle_stallDrive {s : State} (running : s.running = true) :
    (settle false (stallDrive s)).drive.state = .stalled ∧ (settle false (stallDrive s)).drive.command = 0
      ∧ (settle false (stallDrive s)).drive.trim = 0 ∧ (settle false (stallDrive s)).drive.stallStart = none
      ∧ (settle false (stallDrive s)).out.driveEnable = false
      ∧ (s.own, TripCause.stall) ∈ (settle false (stallDrive s)).view.trips
      ∧ (settle false (stallDrive s)).thrust.mode ≠ .advance := by
  have alive : (stallDrive s).running = true := (running_of_base (base_stallDrive s)).trans running
  have base := (base_settle false (stallDrive s)).trans (base_stallDrive s)
  have rests := settle_drive_rests (lim := false) (e := stallDrive s) (by rw [stallDrive_drive]; simp [stalledDrive])
  have drive := stallDrive_drive s
  have enable := driveEnable_at_end (lim := false) alive
  have free := fun advance =>
    (holdsFollow_at_end (lim := false) alive).free_of_advance ((running_settle _ _).trans alive) advance
  generalize settle false (stallDrive s) = t at *
  rw [drive] at rests
  have state : t.drive.state = .stalled := congrArg Drive.state rests
  have trips : (s.own, TripCause.stall) ∈ t.view.trips := by
    rw [trips_of_base base]
    exact mem_withPair_self _ _
  refine ⟨state, congrArg Drive.command rests, congrArg Drive.trim rests, congrArg Drive.stallStart rests, ?_, trips,
    fun advance => ?_⟩
  · rw [enable, state]; simp
  · obtain ⟨_, _, _, none, _⟩ := free advance
    simp [none] at trips

/-! ### SET DRIVE LIMITS -/

/-- The station with the values of a SET DRIVE LIMITS, before its timer is judged on them (05 R90). -/
def withDriveLimits (a b c : Nat) (s : State) : State :=
  { s with
    drive :=
      { s.drive with
        ramp := max 10 (min a 500), stallLevel := max 1100 (min b 1800), stallTime := max 1 (min c 10) } }

theorem exec_setDriveLimits {a b c : Nat} (ha : a < 65536) (hb : b < 65536) (hc : c < 256) (h : CmdHead) {s : State}
    (ready : s.life = .ready) (role : s.cfg.roles.drive = true) :
    exec (.setDriveLimits h (beBytes 2 a ++ beBytes 2 b ++ beBytes 1 c)) s =
      .next (answer h 14
        { result :=
            clampedOr .done [(a, max 10 (min a 500)), (b, max 1100 (min b 1800)), (c, max 1 (min c 10))]
          state := settle false (judgeStallTimer (withDriveLimits a b c s)) }) := by
  have fields : splitFields [2, 2, 1] (beBytes 2 a ++ beBytes 2 b ++ beBytes 1 c) = some [a, b, c] :=
    splitFields_three ha hb hc
  have taken := takeCommand_ready (cmd := setDriveLimitsCommand) (h := h) ready fields rfl role rfl
  have owner : setDriveLimitsCommand.owner [a, b, c] s =
      { result := clampedOr .done [(a, max 10 (min a 500)), (b, max 1100 (min b 1800)), (c, max 1 (min c 10))]
        state := settle false (judgeStallTimer (withDriveLimits a b c s)) } := by
    rw [← setpointResult_eq (by simp)]
    simp [setDriveLimitsCommand, withDriveLimits, clamp, arg]
  rw [owner] at taken
  exact congrArg _ taken

/-- A stall timer whose time has not come is idle below the level, and runs on at or above it (05 R87). -/
theorem judgeStallTimer_early {s : State}
    (early : s.drive.stallStart = none ∨ s.inputs.torque < s.drive.stallLevel
      ∨ (∀ t0, s.drive.stallStart = some t0 → s.clock.now < t0 + s.drive.stallTime * 1000)) :
    judgeStallTimer s =
      { s with
        drive :=
          { s.drive with
            stallStart := if s.inputs.torque < s.drive.stallLevel then none else s.drive.stallStart } } := by
  unfold judgeStallTimer
  split
  · next idle => rw [idle, ite_self, ← idle]
  · next t0 started =>
    split
    · rfl
    · next high =>
      have notDue : s.clock.now < t0 + s.drive.stallTime * 1000 := by
        rcases early with none | low | early
        · simp [none] at started
        · exact absurd low high
        · exact early t0 started
      rw [if_neg (by simp [reached, notDue])]

theorem judgeStallTimer_due {s : State} {t0 : Nat} (started : s.drive.stallStart = some t0)
    (high : s.drive.stallLevel ≤ s.inputs.torque) (due : t0 + s.drive.stallTime * 1000 ≤ s.clock.now) :
    judgeStallTimer s = stallDrive s := by
  unfold judgeStallTimer
  rw [started]
  dsimp only
  rw [if_neg (by omega), if_pos (by simp [reached, due])]

/-- Settles O29. -/
theorem driveLimitsSetAndTimerJudged : Obligations.DriveLimitsSetAndTimerJudged := by
  unfold Obligations.DriveLimitsSetAndTimerJudged
  refine ⟨fun h a b c s ha hb hc ready role early => ?_, fun h a b c t0 s ha hb hc ready role started high due => ?_⟩
  · have judged := judgeStallTimer_early (s := withDriveLimits a b c s) early
    have run := exec_setDriveLimits ha hb hc h ready role
    rw [judged] at run
    have kept := (evalKeeps_settle false
      { withDriveLimits a b c s with
        drive :=
          { (withDriveLimits a b c s).drive with
            stallStart :=
              if s.inputs.torque < max 1100 (min b 1800) then none else s.drive.stallStart } }).queue
    exact ⟨_, run, frame_answer h 14 (settle_frame false _), answered_answer h 14 _ kept⟩
  · have judged := judgeStallTimer_due (s := withDriveLimits a b c s) started high due
    have alive : (withDriveLimits a b c s).running = true := running_of_ready ready
    obtain ⟨state, command, _, stallStart, _, trips, _⟩ := settle_stallDrive alive
    have base := (base_settle false (stallDrive (withDriveLimits a b c s))).trans (base_stallDrive _)
    have run := exec_setDriveLimits ha hb hc h ready role
    rw [judged] at run
    generalize settle false (stallDrive (withDriveLimits a b c s)) = e at *
    refine ⟨_, run, ?_⟩
    dsimp only
    rw [answer_drive, answer_view]
    exact ⟨state, command, stallStart, trips, congrArg Base.ramp base, congrArg Base.stallLevel base,
      congrArg Base.stallTime base⟩

/-! ### The torque and speed inputs -/

/-- The station with a torque reading taken (05 R79). -/
def withTorque (v : Nat) (s : State) : State := { s with inputs := { s.inputs with torque := v } }

/-- The station with a speed reading taken (05 R79). -/
def withSpeed (v : Nat) (s : State) : State := { s with inputs := { s.inputs with speed := v } }

theorem torqueReading_eq {r : Reading} {s : State} (fits : readingFits 2000 r = true) :
    torqueReading r s =
      if s.running && s.drive.state ≠ .absent then settle false (judgeTorque (r.getD 2000) (withTorque (r.getD 2000) s))
      else withTorque (r.getD 2000) s := by
  unfold torqueReading withTorque
  rw [readingOr_eq fits]

theorem measuredSpeedReading_eq {r : Reading} {s : State} (fits : readingFits 600 r = true) :
    measuredSpeedReading r s =
      if s.running && s.drive.state ≠ .absent then settle true (endStop (withSpeed (r.getD 0) s))
      else withSpeed (r.getD 0) s := by
  unfold measuredSpeedReading withSpeed
  rw [readingOr_eq fits]

theorem judgeTorque_eq (v : Nat) (s : State) :
    judgeTorque v s =
      { s with
        drive :=
          if s.drive.state = .starting ∨ s.drive.state = .running ∨ s.drive.state = .stopping then
            { s.drive with
              peakTorque := max s.drive.peakTorque v
              stallStart := if v < s.drive.stallLevel then none else some (s.drive.stallStart.getD s.clock.now) }
          else s.drive } := by
  have watched : stallWatched s.drive.state =
      decide (s.drive.state = .starting ∨ s.drive.state = .running ∨ s.drive.state = .stopping) := by
    cases s.drive.state <;> rfl
  unfold judgeTorque
  rw [watched]
  by_cases turns : s.drive.state = .starting ∨ s.drive.state = .running ∨ s.drive.state = .stopping
  · rw [if_pos (by simp [turns]), if_pos turns]
    by_cases low : v < s.drive.stallLevel
    · rw [if_pos low, if_neg (by omega)]
    · rw [if_neg low, if_pos (by omega)]
  · rw [if_neg (by simp [turns]), if_neg turns]

theorem endStop_eq (s : State) :
    endStop s =
      { s with
        drive :=
          if s.drive.state = .stopping ∧ s.drive.command = 0 ∧ s.inputs.speed < 5 then
            { s.drive with state := .off, trim := 0, stallStart := none }
          else s.drive } := by
  unfold endStop
  by_cases ends : s.drive.state = .stopping ∧ s.drive.command = 0 ∧ s.inputs.speed < 5
  · rw [if_pos (by simp [ends]), if_pos ends]
    rfl
  · rw [if_neg ends, if_neg]
    simpa [and_assoc] using ends

/-- Settles O31. -/
theorem torqueSpeedAndStall : Obligations.TorqueSpeedAndStall := by
  unfold Obligations.TorqueSpeedAndStall
  refine ⟨fun r s running present fits => ?_, fun t0 s running started => ?_, fun s idle => ?_,
    fun r s running present fits => ?_, fun r s off fits => ?_⟩
  · have run : torqueReading r s = settle false (judgeTorque (r.getD 2000) (withTorque (r.getD 2000) s)) := by
      rw [torqueReading_eq fits, if_pos (by simp [running, present])]
    rw [judgeTorque_eq] at run
    exact ⟨_, congrArg Host.Outcome.next run, settle_frame false _⟩
  · have alive : (clockTo (t0 + s.drive.stallTime * 1000) s).running = true := running
    have run : stallTimerExpiry s = settle false (stallDrive (clockTo (t0 + s.drive.stallTime * 1000) s)) := by
      unfold stallTimerExpiry
      rw [started]
      exact if_pos running
    obtain ⟨state, command, trim, stallStart, enable, trips, hold⟩ := settle_stallDrive alive
    have base := (base_settle false (stallDrive (clockTo (t0 + s.drive.stallTime * 1000) s))).trans (base_stallDrive _)
    refine ⟨_, congrArg Host.Outcome.next run, state, command, trim, stallStart, enable, trips, hold, fun room => ?_, base⟩
    exact trip_sent (by rw [addTrip_bus]; exact room) false
  · have same : stallTimerExpiry s = s := by unfold stallTimerExpiry; rw [idle]
    exact congrArg Host.Outcome.next same
  · have run : measuredSpeedReading r s = settle true (endStop (withSpeed (r.getD 0) s)) := by
      rw [measuredSpeedReading_eq fits, if_pos (by simp [running, present])]
    have alive : (endStop (withSpeed (r.getD 0) s)).running = true := by rw [endStop_eq]; exact running
    have limit := settle_vlim alive
    have frame := settle_frame true (endStop (withSpeed (r.getD 0) s))
    rw [← run] at limit frame
    rw [endStop_eq] at frame
    exact ⟨_, rfl, frame, limit⟩
  · have idle : (s.running && decide (s.drive.state ≠ .absent)) = false := by
      rcases off with still | absent
      · simp [still]
      · simp [absent]
    have wide : readingFits 2000 r = true := by
      cases r with
      | none => rfl
      | some v =>
        have low : v ≤ 600 := by simpa [readingFits] using fits
        have wide : v ≤ 2000 := by omega
        simpa [readingFits] using wide
    have speed : measuredSpeedReading r s = withSpeed (r.getD 0) s := by
      rw [measuredSpeedReading_eq fits]
      exact if_neg (by rw [idle]; simp)
    have torque : torqueReading r s = withTorque (r.getD 2000) s := by
      rw [torqueReading_eq wide]
      exact if_neg (by rw [idle]; simp)
    exact ⟨congrArg Host.Outcome.next speed, congrArg Host.Outcome.next torque⟩

/-! ### The drive interval -/

/-- The station whose interval has come, before the drive's work (log 3). -/
def intervalDue (d : Nat) (s : State) : State :=
  { s with clock := { s.clock with now := max s.clock.now d, driveDue := some (d + 100) } }

theorem intervalDone_eq (d : Nat) (s : State) : intervalDone d s = driveWork (intervalDue d s) := rfl

/-- The drive's work changes the drive alone. -/
theorem driveWork_shape (s : State) : driveWork s = { s with drive := (driveWork s).drive } := by
  have counted : ∀ u : State, countRevolutions u = { u with drive := (countRevolutions u).drive } := by
    intro u
    unfold countRevolutions
    split <;> rfl
  have ramped : ∀ u : State, rampInterval u = { u with drive := (rampInterval u).drive } := by
    intro u
    unfold rampInterval
    split <;> rfl
  have stopped : ∀ u : State, stopInterval u = { u with drive := (stopInterval u).drive } := by
    intro u
    unfold stopInterval
    rw [endStop_eq]
  unfold driveWork
  split
  · rfl
  · rw [ramped, counted]
  · rw [ramped, counted]
  · rw [stopped, counted]
  · exact counted s
  · exact counted s

/-- The move of the command in integers (05 R83). -/
theorem moveToward_eq (aim step command : Nat) :
    (moveToward aim step command : Int) =
      if ((command : Int) - aim).natAbs ≤ step then (aim : Int)
      else if (command : Int) < aim then command + step
      else command - step := by
  unfold moveToward
  split
  · split
    · rw [if_pos (by omega)]
    · rw [if_neg (by omega), if_pos (by omega)]; omega
  · split
    · rw [if_pos (by omega)]
    · rw [if_neg (by omega), if_neg (by omega)]; omega

theorem aimOf_eq (d : Drive) : (aimOf d : Int) = max 0 (min ((d.target : Int) + d.trim) 450) := by
  unfold aimOf
  omega

/-- A RUNNING drive is in the mean of the torques (01 R9). -/
theorem meanTorque_running {s : State} (runs : s.drive.state = .running) :
    (meanTorque s).getD s.inputs.torque = (meanTorque s).getD 0 := by
  have some_torque : ∃ m, meanTorque s = some m := by
    unfold meanTorque meanOf
    rw [if_pos runs]
    exact ⟨_, rfl⟩
  obtain ⟨m, mean⟩ := some_torque
  rw [mean]
  rfl

/-- The trim of a RUNNING drive (05 R84). -/
theorem trimOf_running {s : State} (runs : s.drive.state = .running) :
    trimOf s =
      max (-(roundInt s.drive.target 20))
        (min (-(roundInt (((s.inputs.torque : Int) - ((meanTorque s).getD 0 : Nat)) * s.drive.target) 2000))
          (roundInt s.drive.target 20)) := by
  unfold trimOf clampSym
  dsimp only
  rw [meanTorque_running runs]

/-- The trim after an interval of a turning drive. -/
def rampedTrim (s : State) : Int := if s.drive.state = .running then trimOf s else s.drive.trim

theorem rampInterval_drive (s : State) :
    (rampInterval s).drive =
      { s.drive with
        trim := rampedTrim s
        command := moveToward (aimOf { s.drive with trim := rampedTrim s }) (rampStep s.drive) s.drive.command
        state :=
          if s.drive.state = .starting
              ∧ moveToward (aimOf { s.drive with trim := rampedTrim s }) (rampStep s.drive) s.drive.command =
                  s.drive.target then
            .running
          else s.drive.state } := by
  unfold rampInterval rampedTrim
  by_cases runs : s.drive.state = .running
  · simp [runs]
  · simp [runs]

/-- The step toward 0 of a STOPPING drive (05 R86). -/
theorem moveToward_zero (step command : Nat) : moveToward 0 step command = command - step := by
  unfold moveToward
  split
  · rw [if_pos (by omega)]; omega
  · split
    · omega
    · rfl

/-- The drive after an interval's count of its revolutions (05 R91). -/
def counted (speed : Nat) (d : Drive) : Drive :=
  { d with accumulator := if d.accumulator / 600 < 999999 then d.accumulator + speed else d.accumulator }

theorem countRevolutions_eq (s : State) : countRevolutions s = { s with drive := counted s.inputs.speed s.drive } := by
  unfold countRevolutions counted
  have turns : revolutions s = s.drive.accumulator / 600 := rfl
  rw [turns]
  split
  · rfl
  · rfl

/-- The start conditions and the trim look at nothing that an interval counts. -/
theorem countRevolutions_low {s : State} (low : s.drive.accumulator < 599999400) :
    countRevolutions s = { s with drive := { s.drive with accumulator := s.drive.accumulator + s.inputs.speed } } := by
  unfold countRevolutions revolutions
  exact if_pos (by omega)

theorem intervalDone_turning {d : Nat} {s : State} (turns : s.drive.state = .starting ∨ s.drive.state = .running) :
    intervalDone d s = rampInterval (countRevolutions (intervalDue d s)) := by
  rw [intervalDone_eq]
  unfold driveWork
  rcases turns with state | state
  · rw [show (intervalDue d s).drive.state = .starting from state]
  · rw [show (intervalDue d s).drive.state = .running from state]

theorem intervalDone_stopping {d : Nat} {s : State} (stopping : s.drive.state = .stopping) :
    intervalDone d s = stopInterval (countRevolutions (intervalDue d s)) := by
  rw [intervalDone_eq]
  unfold driveWork
  rw [show (intervalDue d s).drive.state = .stopping from stopping]

/-- What remains to show at an interval is the drive: the frame holds with whatever it is. -/
theorem intervalDone_frame {d : Nat} {s t : State} (frame : FrameOf (intervalDone d s) t)
    (drive : t.drive = (intervalDone d s).drive) :
    t.clock = { s.clock with now := max s.clock.now d, driveDue := some (d + 100) }
      ∧ FrameOf { s with drive := t.drive, clock := t.clock } t := by
  have shape : intervalDone d s = { intervalDue d s with drive := (intervalDone d s).drive } :=
    driveWork_shape (intervalDue d s)
  have clock : t.clock = (intervalDue d s).clock := by
    have same := clock_of_base frame.1
    rw [shape] at same
    exact same
  refine ⟨clock, ?_⟩
  rw [clock, drive]
  rw [shape] at frame
  exact frame

/-- A STOPPING drive after one stop step, which may end the stop (05 R86). -/
def stepped (step speed : Nat) (d : Drive) : Drive :=
  if d.command - step = 0 ∧ speed < 5 then
    { d with command := d.command - step, state := .off, trim := 0, stallStart := none }
  else { d with command := d.command - step }

theorem stepped_command (step speed : Nat) (d : Drive) : (stepped step speed d).command = d.command - step := by
  unfold stepped
  split <;> rfl

theorem stepped_accumulator (step speed : Nat) (d : Drive) : (stepped step speed d).accumulator = d.accumulator := by
  unfold stepped
  split <;> rfl

theorem stepped_state (step speed : Nat) (d : Drive) :
    (stepped step speed d).state = if (stepped step speed d).command = 0 ∧ speed < 5 then .off else d.state := by
  rw [stepped_command]
  unfold stepped
  split <;> rfl

theorem stopInterval_eq {s : State} (stopping : s.drive.state = .stopping) :
    stopInterval s = { s with drive := stepped (stopStep s) s.inputs.speed s.drive } := by
  unfold stopInterval stepped
  rw [endStop_eq, moveToward_zero]
  simp only [stopping, true_and]

theorem stopStep_eq (s : State) :
    stopStep s = if s.view.trips ≠ [] ∨ s.view.blind = true then s.drive.ramp else roundNat s.drive.ramp 10 := by
  unfold stopStep tripInView rampStep
  simp

/-- Settles O30. -/
theorem driveIntervalRampsAndStops : Obligations.DriveIntervalRampsAndStops := by
  unfold Obligations.DriveIntervalRampsAndStops
  refine ⟨fun d s running due turns ringOpen peers spoil trips seeing low => ?_, fun d s running due stopping waits => ?_,
    fun d s running due rests => ?_⟩
  · have run : driveInterval s = settle false (intervalDone d s) := driveInterval_due due
    have alive : (intervalDone d s).running = true := by
      rw [intervalDone_eq, driveWork_shape]; exact running
    have fit : startConditions (intervalDone d s) = true := by
      rw [intervalDone_eq, driveWork_shape]
      exact (startConditions_iff s).2 ⟨ringOpen, peers, spoil, trips, seeing⟩
    have openThere : (intervalDone d s).build.state = .ringOpen := by
      rw [intervalDone_eq, driveWork_shape]; exact ringOpen
    have kept : (settle false (intervalDone d s)).drive = (intervalDone d s).drive :=
      settle_drive_fit alive openThere ((driveEval_eq_self_iff _).2 fun _ => fit)
    obtain ⟨clock, frame⟩ := intervalDone_frame (settle_frame false (intervalDone d s)) kept
    have work : (intervalDone d s).drive = (rampInterval (countRevolutions (intervalDue d s))).drive := by
      rw [intervalDone_turning turns]
    have counted : countRevolutions (intervalDue d s) =
        { intervalDue d s with drive := { s.drive with accumulator := s.drive.accumulator + s.inputs.speed } } :=
      countRevolutions_low low
    rw [rampInterval_drive, counted] at work
    have trim : rampedTrim
          { intervalDue d s with drive := { s.drive with accumulator := s.drive.accumulator + s.inputs.speed } } =
        rampedTrim s := rfl
    rw [trim] at work
    have ramped : rampedTrim s =
        if s.drive.state = .running then
          max (-(roundInt s.drive.target 20))
            (min (-(roundInt (((s.inputs.torque : Int) - ((meanTorque s).getD 0 : Nat)) * s.drive.target) 2000))
              (roundInt s.drive.target 20))
        else s.drive.trim := by
      unfold rampedTrim
      split
      · next runs => exact trimOf_running runs
      · rfl
    have command := moveToward_eq (aimOf { s.drive with trim := rampedTrim s }) (rampStep s.drive) s.drive.command
    have aim : (aimOf { s.drive with trim := rampedTrim s } : Int) =
        max 0 (min ((s.drive.target : Int) + rampedTrim s) 450) := aimOf_eq _
    have answered : exec .driveInterval s = .next (settle false (intervalDone d s)) :=
      congrArg Host.Outcome.next run
    generalize settle false (intervalDone d s) = t at *
    have drive := kept.trans work
    have commandAt : t.drive.command =
        moveToward (aimOf { s.drive with trim := rampedTrim s }) (rampStep s.drive) s.drive.command :=
      congrArg Drive.command drive
    refine ⟨t, answered, ?_⟩
    dsimp only
    rw [← ramped]
    have commandIs : (t.drive.command : Int) =
        if ((s.drive.command : Int) - max 0 (min ((s.drive.target : Int) + rampedTrim s) 450)).natAbs ≤
            ((roundNat s.drive.ramp 10 : Nat) : Int) then
          max 0 (min ((s.drive.target : Int) + rampedTrim s) 450)
        else if (s.drive.command : Int) < max 0 (min ((s.drive.target : Int) + rampedTrim s) 450) then
          s.drive.command + ((roundNat s.drive.ramp 10 : Nat) : Int)
        else s.drive.command - ((roundNat s.drive.ramp 10 : Nat) : Int) := by
      rw [commandAt, command, aim]
      simp only [Int.ofNat_le]
      rfl
    refine ⟨congrArg Drive.trim drive, commandIs, ?_, congrArg Drive.accumulator drive, clock, frame⟩
    rw [← commandIs, commandAt]
    simp only [Int.ofNat_inj]
    exact congrArg Drive.state drive
  · have run : driveInterval s = settle false (intervalDone d s) := driveInterval_due due
    have work := intervalDone_stopping (d := d) stopping
    rw [countRevolutions_eq, stopInterval_eq (by exact stopping)] at work
    have drive : (intervalDone d s).drive = stepped (stopStep s) s.inputs.speed (counted s.inputs.speed s.drive) := by
      rw [work]; rfl
    have state := stepped_state (stopStep s) s.inputs.speed (counted s.inputs.speed s.drive)
    have command := stepped_command (stopStep s) s.inputs.speed (counted s.inputs.speed s.drive)
    have accumulator := stepped_accumulator (stopStep s) s.inputs.speed (counted s.inputs.speed s.drive)
    rw [← drive] at state command accumulator
    have rests : (intervalDone d s).drive.state ≠ .starting ∧ (intervalDone d s).drive.state ≠ .running := by
      have stands : (counted s.inputs.speed s.drive).state = .stopping := stopping
      rw [state, stands]
      split <;> simp
    have seq : (intervalDone d s).erector.seq ≠ .awaitingPress := by
      rw [intervalDone_eq, driveWork_shape]; exact waits
    have kept := settle_drive_rests_of_seq (lim := false) rests seq
    obtain ⟨clock, frame⟩ := intervalDone_frame (settle_frame false (intervalDone d s)) kept
    have answered : exec .driveInterval s = .next (settle false (intervalDone d s)) :=
      congrArg Host.Outcome.next run
    generalize settle false (intervalDone d s) = t at *
    rw [← kept] at state command accumulator
    rw [stopStep_eq] at command
    refine ⟨t, answered, command, ?_, accumulator, clock, frame⟩
    have stands : (counted s.inputs.speed s.drive).state = .stopping := stopping
    rw [stands] at state
    exact state
  · have run : driveInterval s = settle false (intervalDone d s) := driveInterval_due due
    have work : intervalDone d s =
        { intervalDue d s with
          drive :=
            { s.drive with
              accumulator :=
                if s.drive.state ≠ .absent ∧ s.drive.accumulator / 600 < 999999 then
                  s.drive.accumulator + s.inputs.speed
                else s.drive.accumulator } } := by
      have counts := countRevolutions_eq (intervalDue d s)
      unfold counted at counts
      have present : s.drive.state ≠ .absent →
          (if s.drive.state ≠ .absent ∧ s.drive.accumulator / 600 < 999999 then s.drive.accumulator + s.inputs.speed
            else s.drive.accumulator) =
            if s.drive.accumulator / 600 < 999999 then s.drive.accumulator + s.inputs.speed
            else s.drive.accumulator := fun there => by simp only [there, ne_eq, not_false_eq_true, true_and]
      rw [intervalDone_eq]
      unfold driveWork
      rcases rests with state | state | state
      · rw [show (intervalDue d s).drive.state = .absent from state, if_neg (by simp [state])]
        rfl
      · rw [show (intervalDue d s).drive.state = .off from state, present (by simp [state])]
        exact counts
      · rw [show (intervalDue d s).drive.state = .stalled from state, present (by simp [state])]
        exact counts
    have frame := settle_frame false (intervalDone d s)
    rw [← run, work] at frame
    exact ⟨_, rfl, frame⟩

end Sys2Proof.Machine
end

section
/-! PROOF. The line: ARM, CLOSE and FLUSH LINE, the line pressure, the stroke pulses and the two timers (08 R122, R123, R129
to R133). -/

namespace Sys2Proof.Machine

open Sys2Proof

/-! ### The line as an event ends -/

/-- An evaluation leaves a line that is neither ARMED nor INJECTING in its state, with its rate, LINE SATURATED and the
used marker (08 R121, R123, R133). -/
theorem Changes.line_rests {s t : State} (h : Changes .eval s t) (rests : lineReady s.grout.line = false) :
    t.grout.line = s.grout.line ∧ t.grout.rate = s.grout.rate ∧ t.grout.saturated = s.grout.saturated
      ∧ t.grout.used = s.grout.used := by
  induction h with
  | refl => exact ⟨rfl, rfl, rfl, rfl⟩
  | tail _ change ih =>
    cases change
    case groutSettings g same =>
      obtain ⟨line, rate, saturated, used⟩ := same
      obtain ⟨line', rate', saturated', used'⟩ := ih
      exact ⟨line.trans line', rate.trans rate', saturated.trans saturated', used.trans used'⟩
    case line l ready => rw [ih.1, rests] at ready; exact absurd ready (by simp)
    case screwState => obtain ⟨u, e⟩ := setScrew_eq (screwChoice _) _; rw [e]; exact ih
    all_goals exact ih

theorem settle_line_rests {lim : Bool} {e : State} (rests : lineReady e.grout.line = false) :
    (settle lim e).grout.line = e.grout.line ∧ (settle lim e).grout.rate = e.grout.rate
      ∧ (settle lim e).grout.saturated = e.grout.saturated ∧ (settle lim e).grout.used = e.grout.used :=
  (changes_settle lim e).line_rests rests

theorem valves_at_end {lim : Bool} {e : State} (running : e.running = true) :
    (settle lim e).out.groutValve = decide ((settle lim e).grout.line = .injecting)
      ∧ (settle lim e).out.flushValve = decide ((settle lim e).grout.line = .flushing) := by
  have follows := outputsFollow_at_end (lim := lim) running
  unfold OutputsFollow at follows
  rw [if_pos ((running_settle lim e).trans running)] at follows
  obtain ⟨_, _, _, _, _, _, _, _, grout, flush, _⟩ := follows
  exact ⟨grout, flush⟩

theorem lineReady_iff (l : LineState) : lineReady l = true ↔ l = .armed ∨ l = .injecting := by
  cases l <;> simp [lineReady]

/-- The injection condition moves a ready line between its two states alone, and leaves the rate (08 R123). -/
theorem injectionEval_ready {s : State} (ready : lineReady s.grout.line = true) :
    lineReady (injectionEval s).grout.line = true ∧ (injectionEval s).grout.rate = s.grout.rate := by
  refine ⟨by rw [lineReady_injectionEval]; exact ready, ?_⟩
  have tail : (tailEval s).grout.rate = s.grout.rate := by
    unfold tailEval
    repeat' split
    all_goals rfl
  have set : ∀ (l : LineState) (u : State), lineReady l = true → (setLine l u).grout.rate = u.grout.rate := by
    intro l u ready
    exact if_pos ready
  unfold injectionEval
  dsimp only
  repeat' split
  · rw [set _ _ rfl, tail]
  · exact tail
  · exact tail
  · rw [set _ _ rfl, tail]
  · exact tail

/-- Without a SET of the erector unit a ready line ends the event ready, as the injection condition stands, at its rate. -/
theorem settle_line_ready {lim : Bool} {e : State} (running : e.running = true)
    (ready : lineReady e.grout.line = true) (free : e.cfg.roles.erector = true → ¬setDue (unitsEval lim e)) :
    lineReady (settle lim e).grout.line = true ∧ (settle lim e).grout.rate = e.grout.rate := by
  have grout := grout_unitsAtEnd free
  rw [settle_grout running]
  have there : lineReady (unitsAtEnd lim e).grout.line = true := by rw [grout]; exact ready
  obtain ⟨line, rate⟩ := injectionEval_ready there
  exact ⟨line, by rw [rate, grout]⟩

theorem injection_at_end {lim : Bool} {e : State} (running : e.running = true) : InjectionFollows (settle lim e) :=
  injectionFollows_settle (settle lim e).bus running

/-- A ready line as an event ends: ARMED, or INJECTING in ADVANCE. -/
theorem line_at_end {lim : Bool} {e : State} (running : e.running = true)
    (ready : lineReady (settle lim e).grout.line = true) :
    (settle lim e).grout.line = .armed
      ∨ ((settle lim e).grout.line = .injecting ∧ (settle lim e).thrust.mode = .advance) := by
  obtain ⟨injecting, _⟩ := injection_at_end (lim := lim) running ((running_settle lim e).trans running)
  rcases (lineReady_iff _).1 ready with armed | injects
  · exact .inl armed
  · exact .inr ⟨injects, (injecting injects).1⟩

/-! ### ARM LINE -/

/-- A settled sequence sends no SET at a station whose erector unit and peer view are the same, and whose group has not
come to HOLD (04 R74). -/
theorem not_setDue_of_sight {s e : State} (settled : SequenceSettled s) (running : s.running = true)
    (present : s.cfg.roles.erector = true) (own : e.own = s.own) (peers : e.view.peers = s.view.peers)
    (erector : e.erector = s.erector) (mode : e.thrust.mode = .hold → s.thrust.mode = .hold) : ¬setDue e := by
  have free : ¬setDue (setMode e.thrust.mode s) :=
    not_setDue (b := s.thrust.holds.stopped) settled running present rfl rfl mode
  have seen : seenIn e .hold = seenIn (setMode e.thrust.mode s) .hold := by
    funext a
    have body : freshBody e a = freshBody (setMode e.thrust.mode s) a := by
      simp only [freshBody, entryOf, own, peers]
      rfl
    simp only [seenIn, body, own]
    rfl
  rintro ⟨seq, w, working, held⟩
  refine free ⟨by rw [← seq, erector]; rfl, w, by rw [← working, erector]; rfl, ?_⟩
  rw [← seen]
  exact held

/-- The station whose CLOSED line is armed, before the units are evaluated (08 R122, R132). -/
def armedFresh (s : State) : State :=
  { setLine .armed s with grout := { (setLine .armed s).grout with potStart := some s.clock.now } }

theorem exec_armLine (h : CmdHead) {s : State} (ready : s.life = .ready) (role : s.cfg.roles.line = true) :
    exec (.armLine h []) s = .next (answer h 21 (armOwner s)) :=
  congrArg Host.Outcome.next (takeCommand_ready (cmd := armLineCommand) (h := h) ready rfl rfl role rfl)

/-- A settled erector sequence sends no SET in the event that arms a line (04 R74): the group comes to HOLD from ADVANCE
alone, and ADVANCE stands in an open ring alone. -/
theorem armedFresh_ready {s : State} (ready : s.life = .ready) (settled : SequenceSettled s) (follows : HoldsFollow s) :
    lineReady (settle false (armedFresh s)).grout.line = true := by
  have alive : (armedFresh s).running = true := running_of_ready ready
  have running : s.running = true := running_of_ready ready
  by_cases ringOpen : s.build.state = .ringOpen
  · obtain ⟨x, b, shape⟩ :=
      erectorEval_shape_ringOpen (s := unitsEval false (armedFresh s)) (by rw [unitsEval_build_state]; exact ringOpen)
    have grout : (unitsAtEnd false (armedFresh s)).grout = (armedFresh s).grout := by
      unfold unitsAtEnd
      rw [unitsEval_grout, shape]
      exact unitsEval_grout false (armedFresh s)
    rw [settle_grout alive]
    exact (injectionEval_ready (by rw [grout]; rfl)).1
  · refine (settle_line_ready alive rfl fun present due => ?_).1
    have hold : (unitsEval false (armedFresh s)).thrust.mode = .hold → s.thrust.mode = .hold := by
      intro held
      rcases unitsEval_mode_cases false (armedFresh s) with same | ⟨was | was, _⟩
      · exact same.symm.trans held
      · exact was
      · obtain ⟨_, openRing, _⟩ := follows.free_of_advance running was
        exact absurd openRing ringOpen
    have base : baseOf (unitsEval false (armedFresh s)) = baseOf (armedFresh s) := base_unitsEval _ _
    have own : (unitsEval false (armedFresh s)).own = s.own := by have same := own_of_base base; exact same
    have peers : (unitsEval false (armedFresh s)).view.peers = s.view.peers := by
      have same := peers_of_base base; exact same
    have erector : (unitsEval false (armedFresh s)).erector = s.erector := by
      have same := erector_unitsEval false (armedFresh s); exact same
    exact not_setDue_of_sight settled running present own peers erector hold due

/-! ### CLOSE LINE and FLUSH LINE -/

theorem exec_closeLine (h : CmdHead) {s : State} (ready : s.life = .ready) (role : s.cfg.roles.line = true) :
    exec (.closeLine h []) s = .next (answer h 22 (closeOwner s)) :=
  congrArg Host.Outcome.next (takeCommand_ready (cmd := closeLineCommand) (h := h) ready rfl rfl role rfl)

theorem exec_flushLine (h : CmdHead) {s : State} (ready : s.life = .ready) (role : s.cfg.roles.line = true) :
    exec (.flushLine h []) s = .next (answer h 23 (flushOwner s)) :=
  congrArg Host.Outcome.next (takeCommand_ready (cmd := flushLineCommand) (h := h) ready rfl rfl role rfl)

/-- How an event ends that begins a flush (08 R131). -/
theorem settle_startFlush {s : State} (running : s.running = true) :
    (settle false (startFlush s)).grout.line = .flushing ∧ (settle false (startFlush s)).grout.rate = 0
      ∧ (settle false (startFlush s)).grout.used = false ∧ (settle false (startFlush s)).out.flushValve = true
      ∧ (settle false (startFlush s)).out.groutValve = false := by
  obtain ⟨line, rate, _, used⟩ := settle_line_rests (lim := false) (e := startFlush s) rfl
  obtain ⟨groutValve, flushValve⟩ := valves_at_end (lim := false) (e := startFlush s) running
  have flushing : (startFlush s).grout.line = .flushing := rfl
  refine ⟨line, rate, used, ?_, ?_⟩
  · rw [flushValve, line, flushing]; rfl
  · rw [groutValve, line, flushing]; rfl

/-- A closed line, whichever way CLOSE LINE takes it there (08 R130). -/
def lineClosed (s : State) : State := if s.grout.used then startFlush s else setLine .closed s

/-- Settles O39: the line state, the markers and the pressure decide the row; the line rests as the event ends, or stands
as the injection condition has it. -/
theorem lineCommandsFollowTables : Obligations.LineCommandsFollowTables := by
  unfold Obligations.LineCommandsFollowTables
  refine ⟨fun h s ready role closed => ?_, fun h s ready role tripped setting low => ?_, fun h s ready role armed => ?_,
    fun h s ready role busy => ?_, fun h s ready role armed => ?_, fun h s ready role closed => ?_,
    fun h s ready role busy => ?_, fun h s ready role may => ?_, fun h s ready role busy => ?_⟩
  · have arms : armOwner s = done (settle false (armedFresh s)) := by
      unfold armOwner
      rw [closed]
      rfl
    have alive : (armedFresh s).running = true := running_of_ready ready
    have run := exec_armLine h ready role
    rw [arms] at run
    refine ⟨_, run, fun settled follows => ?_, ?_, answered_done_settle h 21 (queueKept_same rfl)⟩
    · rw [answer_grout, answer_thrust]
      exact line_at_end alive (armedFresh_ready ready settled follows)
    · exact frame_answer h 21 ((settle_frame false (armedFresh s)).congr rfl rfl rfl rfl rfl rfl rfl rfl)
  · have arms : armOwner s = done (settle false (setLine .armed s)) := by
      unfold armOwner
      rw [tripped]
      dsimp only
      rw [if_neg (by simp [setting]), if_neg (by omega)]
    have alive : (setLine .armed s).running = true := running_of_ready ready
    have run := exec_armLine h ready role
    rw [arms] at run
    refine ⟨_, run, ?_, answered_done_settle h 21 (queueKept_same rfl), fun waits => ?_⟩
    · exact frame_answer h 21 ((settle_frame false (setLine .armed s)).congr rfl rfl rfl rfl rfl rfl rfl rfl)
    · rw [answer_grout, answer_thrust]
      exact line_at_end alive (settle_line_ready (e := setLine .armed s) alive rfl (free_of_seq waits)).1
  · have stays : armOwner s = done s := by
      unfold armOwner
      rcases armed with line | line <;> rw [line]
    rw [exec_armLine h ready role, stays, answer_done]
  · have refused : armOwner s = refuse .busy s := by
      unfold armOwner
      rcases busy with line | ⟨line, setting | high⟩
      · rw [line]
      · rw [line]; exact if_pos setting
      · rw [line]
        dsimp only
        rw [if_pos high, ite_self]
    rw [exec_armLine h ready role, refused, answer_refuse h 21 (by simp)]
  · have closes : closeOwner s = done (settle false (lineClosed s)) := by
      unfold closeOwner
      rcases armed with line | line <;> rw [line] <;> rfl
    have running : s.running = true := running_of_ready ready
    have run := exec_closeLine h ready role
    rw [closes] at run
    by_cases used : s.grout.used = true
    · have flushes : lineClosed s = startFlush s := if_pos used
      rw [flushes] at run
      obtain ⟨line, rate, _⟩ := settle_startFlush running
      refine ⟨_, run, ?_, ?_, ?_, answered_done_settle h 22 (queueKept_same rfl)⟩
      · rw [answer_grout, if_pos used]; exact line
      · rw [answer_grout]; exact rate
      · rw [if_pos used]
        exact frame_answer h 22 ((settle_frame false (startFlush s)).congr rfl rfl rfl rfl rfl rfl rfl rfl)
    · have shut : lineClosed s = setLine .closed s := if_neg used
      rw [shut] at run
      obtain ⟨line, rate, _⟩ := settle_line_rests (lim := false) (e := setLine .closed s) rfl
      refine ⟨_, run, ?_, ?_, ?_, answered_done_settle h 22 (queueKept_same rfl)⟩
      · rw [answer_grout, if_neg used]; exact line
      · rw [answer_grout]; exact rate
      · rw [if_neg used]
        exact frame_answer h 22 ((settle_frame false (setLine .closed s)).congr rfl rfl rfl rfl rfl rfl rfl rfl)
  · have stays : closeOwner s = done s := by unfold closeOwner; rw [closed]
    rw [exec_closeLine h ready role, stays, answer_done]
  · have refused : closeOwner s = refuse .busy s := by
      unfold closeOwner
      rcases busy with line | line <;> rw [line]
    rw [exec_closeLine h ready role, refused, answer_refuse h 22 (by simp)]
  · have flushes : flushOwner s = done (settle false (startFlush s)) := by
      unfold flushOwner
      rcases may with line | line | ⟨line, low⟩
      · rw [line]
      · rw [line]
      · rw [line]; exact if_pos low
    have run := exec_flushLine h ready role
    rw [flushes] at run
    obtain ⟨line, rate, used, flushValve, groutValve⟩ := settle_startFlush (running_of_ready ready)
    refine ⟨_, run, ?_, ?_, ?_, ?_, ?_, ?_, answered_done_settle h 23 (queueKept_same rfl)⟩
    · rw [answer_grout]; exact line
    · rw [answer_grout]; exact rate
    · rw [answer_grout]; exact used
    · rw [answer_out]; exact flushValve
    · rw [answer_out]; exact groutValve
    · exact frame_answer h 23 ((settle_frame false (startFlush s)).congr rfl rfl rfl rfl rfl rfl rfl rfl)
  · have refused : flushOwner s = refuse .busy s := by
      unfold flushOwner
      rcases busy with line | line | ⟨line, high⟩
      · rw [line]
      · rw [line]
      · rw [line]; exact if_neg (by omega)
    rw [exec_flushLine h ready role, refused, answer_refuse h 23 (by simp)]

end Sys2Proof.Machine
end

section
/-! PROOF. The line's inputs and timers: its pressure, the stroke pulses, pot life and flush timer (08 R129 to R133). -/

namespace Sys2Proof.Machine

open Sys2Proof

/-- The station with a line pressure taken (08 R120). -/
def withPressure (v : Nat) (s : State) : State := { s with inputs := { s.inputs with linePressure := v } }

theorem exec_linePressureReading {r : Reading} {s : State} (running : s.running = true)
    (fits : readingFits 1000 r = true) :
    exec (.linePressureReading r) s =
      .next (settle false (judgeLinePressure (withPressure (r.getD 1000) s))) := by
  have taken : readingOr 1000 1000 r = r.getD 1000 := readingOr_eq fits
  have ends : linePressureReading r s = settle false (judgeLinePressure (withPressure (readingOr 1000 1000 r) s)) :=
    if_pos running
  rw [taken] at ends
  exact congrArg Host.Outcome.next ends

/-- A reading that is not above the limit of a ready line trips nothing (08 R133). -/
theorem judgeLinePressure_harmless {s : State}
    (harmless : (s.grout.line ≠ .armed ∧ s.grout.line ≠ .injecting) ∨ s.inputs.linePressure ≤ s.grout.active.limit) :
    judgeLinePressure s = s := by
  unfold judgeLinePressure
  refine if_neg ?_
  simp only [Bool.and_eq_true, decide_eq_true_eq, lineReady_iff]
  rintro ⟨ready, high⟩
  rcases harmless with ⟨armed, injecting⟩ | low
  · exact ready.elim armed injecting
  · omega

theorem judgeLinePressure_trips {s : State} (ready : s.grout.line = .armed ∨ s.grout.line = .injecting)
    (high : s.grout.active.limit < s.inputs.linePressure) : judgeLinePressure s = tripLine s := by
  unfold judgeLinePressure
  refine if_pos ?_
  simp only [Bool.and_eq_true, decide_eq_true_eq, lineReady_iff]
  exact ⟨ready, high⟩

/-- The station after a stroke pulse in INJECTING, before the units are evaluated (08 R129). -/
def strokeCounted (s : State) : State :=
  { s with
    grout :=
      { s.grout with
        strokes := min (s.grout.strokes + 1) 99999
        volume := min (s.grout.volume + s.cfg.vs) 9999999
        potStart := some s.clock.now } }

/-- Settles O41. -/
theorem lineEventsAndTimers : Obligations.LineEventsAndTimers := by
  unfold Obligations.LineEventsAndTimers
  refine ⟨fun r s running fits ready high => ?_, fun r s running fits harmless => ?_, fun s running injecting => ?_,
    fun s still => ?_, fun t0 s running started ready => ?_, fun t0 s running started tripped => ?_,
    fun t0 s running started => ?_, fun s idle => ?_, fun s idle => ?_⟩
  · have run := exec_linePressureReading running fits
    rw [judgeLinePressure_trips (by exact ready) (by exact high)] at run
    obtain ⟨line, rate, saturated, _⟩ :=
      settle_line_rests (lim := false) (e := tripLine (withPressure (r.getD 1000) s)) rfl
    have valve := (valves_at_end (lim := false) (e := tripLine (withPressure (r.getD 1000) s)) running).1
    have there : (tripLine (withPressure (r.getD 1000) s)).grout.line = .tripped := rfl
    refine ⟨_, run, line, rate, ?_, ?_, ?_, fun waits => ?_⟩
    · rw [saturated]
      exact Bool.and_false _
    · rw [valve, line, there]; rfl
    · exact (settle_frame false (tripLine (withPressure (r.getD 1000) s))).congr rfl rfl rfl rfl rfl rfl rfl rfl
    · rw [settle_lineTripped (e := tripLine (withPressure (r.getD 1000) s)) (free_of_seq waits)]
      change (s.records.current.grout.map _).map _ = _
      rw [Option.map_map]
      rfl
  · have run := exec_linePressureReading running fits
    rw [judgeLinePressure_harmless (by exact harmless)] at run
    have alive : (withPressure (r.getD 1000) s).running = true := running
    refine ⟨_, run, settle_frame false _, fun armed injecting => ?_, fun waits => ⟨fun ready => ?_, ?_⟩⟩
    · have rests : lineReady (withPressure (r.getD 1000) s).grout.line = false := by
        rw [Bool.eq_false_iff, ne_eq, lineReady_iff]
        exact fun ready => ready.elim armed injecting
      obtain ⟨line, rate, saturated, _⟩ := settle_line_rests (lim := false) rests
      exact ⟨line, rate, saturated⟩
    · obtain ⟨stays, rate⟩ := settle_line_ready (lim := false) (e := withPressure (r.getD 1000) s) alive
        ((lineReady_iff _).2 ready) (free_of_seq waits)
      obtain ⟨injecting, armed, _⟩ :=
        injection_at_end (lim := false) alive ((running_settle false _).trans alive)
      refine ⟨rate, ?_, injecting⟩
      rcases (lineReady_iff _).1 stays with isArmed | injects
      · exact .inr ⟨isArmed, armed isArmed⟩
      · exact .inl injects
    · exact settle_lineTripped (e := withPressure (r.getD 1000) s) (free_of_seq waits)
  · have counts : strokePulse s = settle false (strokeCounted s) := if_pos (by simp [running, injecting])
    exact ⟨_, congrArg Host.Outcome.next counts, settle_frame false (strokeCounted s)⟩
  · have same : strokePulse s = s := if_neg (by simpa [imp_iff_not_or] using still)
    exact congrArg Host.Outcome.next same
  · have flushes : potLifeExpiry s = settle false (startFlush (clockTo (t0 + s.grout.potLife * 1000) s)) := by
      unfold potLifeExpiry
      rw [started]
      dsimp only
      rw [if_pos running, potLifeExpires_ready (by exact ready)]
    obtain ⟨line, rate, used, flushValve, _⟩ :=
      settle_startFlush (s := clockTo (t0 + s.grout.potLife * 1000) s) running
    have base := base_settle false (startFlush (clockTo (t0 + s.grout.potLife * 1000) s))
    exact ⟨_, congrArg Host.Outcome.next flushes, line, used, rate, flushValve, base⟩
  · have raises : potLifeExpiry s = settle false (raiseSetting (clockTo (t0 + s.grout.potLife * 1000) s)) := by
      unfold potLifeExpiry
      rw [started]
      dsimp only
      rw [if_pos running, potLifeExpires_tripped (by exact tripped)]
    have rests : lineReady (raiseSetting (clockTo (t0 + s.grout.potLife * 1000) s)).grout.line = false := by
      change lineReady s.grout.line = false
      rw [tripped]
      rfl
    obtain ⟨line, _⟩ := settle_line_rests (lim := false) rests
    have base := base_settle false (raiseSetting (clockTo (t0 + s.grout.potLife * 1000) s))
    exact ⟨_, congrArg Host.Outcome.next raises, line.trans tripped, base⟩
  · have ends : flushTimerExpiry s = settle false (endFlush (clockTo (t0 + s.grout.flushTime * 1000) s)) := by
      unfold flushTimerExpiry
      rw [started]
      exact if_pos running
    obtain ⟨line, _⟩ :=
      settle_line_rests (lim := false) (e := endFlush (clockTo (t0 + s.grout.flushTime * 1000) s)) rfl
    have valve := (valves_at_end (lim := false) (e := endFlush (clockTo (t0 + s.grout.flushTime * 1000) s)) running).2
    have there : (endFlush (clockTo (t0 + s.grout.flushTime * 1000) s)).grout.line = .closed := rfl
    have base := base_settle false (endFlush (clockTo (t0 + s.grout.flushTime * 1000) s))
    refine ⟨_, congrArg Host.Outcome.next ends, line, ?_, base⟩
    rw [valve, line, there]; rfl
  · have same : potLifeExpiry s = s := by unfold potLifeExpiry; rw [idle]
    exact congrArg Host.Outcome.next same
  · have same : flushTimerExpiry s = s := by unfold flushTimerExpiry; rw [idle]
    exact congrArg Host.Outcome.next same

end Sys2Proof.Machine
end

section
/-! PROOF. The screw unit and the spoil part as an event ends, and the belt and additive pulses (06 R94, R102, R103; 07 R110
to R112). -/

namespace Sys2Proof.Machine

open Sys2Proof

/-! ### The screw unit as an event ends -/

/-- What 06 R94 chooses from does not tell one build state of a ring that is not open from another. -/
theorem screwChoice_sameRing {s t : State} (life : s.life = t.life) (own : s.own = t.own) (view : s.view = t.view)
    (drive : s.drive.state = t.drive.state) (target : s.screw.target = t.screw.target)
    (blind : s.train.reasons.pressureBlind = t.train.reasons.pressureBlind)
    (ring : s.build.state = .ringOpen ↔ t.build.state = .ringOpen) : screwChoice s = screwChoice t := by
  have open_ : decide (s.build.state ≠ .ringOpen) = decide (t.build.state ≠ .ringOpen) := by simp [ring]
  simp only [screwChoice, peerBuilding, driveInView, freshPeers, freshBody, entryOf, tripInView, life, own, view, drive,
    target, blind, open_]
  rfl

/-- Of the screw unit an evaluation that leaves the state leaves command, belt-silence timer and settings. -/
theorem setScrew_same {x : ScrewState} {s : State} (same : s.screw.state = x) : setScrew x s = s := if_pos same

theorem setScrew_state (x : ScrewState) (s : State) : (setScrew x s).screw.state = x := by
  unfold setScrew
  split
  · next same => exact same
  · rfl

/-- The screw state after an evaluation of the screw unit (06 R94). -/
theorem screwEval_screw {s : State} (role : s.cfg.roles.screw = true) :
    (screwEval s).screw.state = screwChoice (pressureBlindEval s)
      ∧ (s.screw.state = screwChoice (pressureBlindEval s) →
          (screwEval s).screw.command = s.screw.command ∧ (screwEval s).screw.beltStart = s.screw.beltStart) := by
  have whole : (screwEval s).screw.state = (setScrew (screwChoice (pressureBlindEval s)) (pressureBlindEval s)).screw.state
      ∧ (screwEval s).screw.command =
          (setScrew (screwChoice (pressureBlindEval s)) (pressureBlindEval s)).screw.command
      ∧ (screwEval s).screw.beltStart =
          (setScrew (screwChoice (pressureBlindEval s)) (pressureBlindEval s)).screw.beltStart := by
    unfold screwEval
    rw [if_pos role]
    exact ⟨rfl, rfl, rfl⟩
  obtain ⟨state, command, beltStart⟩ := whole
  refine ⟨state.trans (setScrew_state _ _), fun same => ?_⟩
  rw [command, beltStart, setScrew_same (by rw [pressureBlindEval_screw]; exact same), pressureBlindEval_screw]
  exact ⟨rfl, rfl⟩

/-- The screw state that the first evaluation of an event chooses. -/
def firstChoice (e : State) : ScrewState := screwChoice (pressureBlindEval (driveEval e))

theorem unitsEval_screw_state {lim : Bool} {e : State} (role : e.cfg.roles.screw = true) :
    (unitsEval lim e).screw.state = firstChoice e
      ∧ (e.screw.state = firstChoice e →
          (unitsEval lim e).screw.command = e.screw.command ∧ (unitsEval lim e).screw.beltStart = e.screw.beltStart) := by
  have there : (driveEval e).cfg.roles.screw = true := by rw [cfg_of_base (base_driveEval e)]; exact role
  have screw : (driveEval e).screw = e.screw := by unfold driveEval; split <;> rfl
  obtain ⟨state, kept⟩ := screwEval_screw there
  rw [unitsEval_screw]
  rw [screw] at kept
  exact ⟨state, kept⟩

/-- The same screw state is chosen in surroundings that differ in the build alone, and not in whether the ring is open;
PRESSURE BLIND stands by then (06 R94). -/
theorem firstChoice_again {lim : Bool} {e u : State} (rest : restOf u = restOf (unitsEval lim e))
    (ring : u.build.state = .ringOpen ↔ (unitsEval lim e).build.state = .ringOpen) :
    firstChoice u = firstChoice e := by
  have around := unitsEval_surroundings lim e
  have driveSame : u.drive = (unitsEval lim e).drive := drive_of_rest rest
  have still : driveEval u = u := by
    have fit := (driveEval_eq_self_iff _).1 (driveEval_unitsEval lim e)
    rw [driveEval_eq_self_iff, driveSame]
    intro turns
    have conditions := fit turns
    rw [startConditions_iff] at conditions ⊢
    obtain ⟨openRing, peers, spoil, trips, seeing⟩ := conditions
    have fresh : freshPeers u = freshPeers (unitsEval lim e) :=
      freshPeers_congr (own_of_rest rest) (by rw [view_of_rest rest])
    have building : peerBuilding u = peerBuilding (unitsEval lim e) := by unfold peerBuilding; rw [fresh]
    have station : spoilStation u = spoilStation (unitsEval lim e) := by
      unfold spoilStation
      rw [fresh, own_of_rest rest, cfg_of_rest rest]
    exact ⟨ring.2 openRing, building.trans peers, by rw [station]; exact spoil, by rw [view_of_rest rest]; exact trips,
      by rw [view_of_rest rest]; exact seeing⟩
  have pressure : ∀ s t : State, s.own = t.own → s.cfg = t.cfg → s.view = t.view → s.inputs = t.inputs →
      controlPressure s = controlPressure t := by
    intro s t own cfg view inputs
    have reading : crownReading s = crownReading t := by
      funext a
      simp only [crownReading, freshBody, entryOf, own, view, inputs]
    unfold controlPressure crownSet
    rw [reading, cfg]
  unfold firstChoice
  rw [still]
  have blindSurroundings := pressureBlindEval_surroundings u
  have firstSurroundings := pressureBlindEval_surroundings (driveEval e)
  refine screwChoice_sameRing ?_ ?_ ?_ ?_ ?_ ?_ ?_
  · rw [blindSurroundings.life, firstSurroundings.life, life_of_rest rest, around.life]
  · rw [blindSurroundings.own, firstSurroundings.own, own_of_rest rest, around.own]
  · rw [blindSurroundings.view, firstSurroundings.view, view_of_rest rest, around.view]
  · rw [blindSurroundings.driveState, firstSurroundings.driveState, driveSame, around.driveState]
  · have target := (changes_unitsEval lim e).sameFigures.target
    have first : (driveEval e).screw = e.screw := by unfold driveEval; split <;> rfl
    rw [pressureBlindEval_screw, pressureBlindEval_screw, screw_of_rest rest, target, first]
  · rw [pressureBlindEval_pressureBlind, pressureBlindEval_pressureBlind]
    congr 1
    exact pressure _ _ ((own_of_rest rest).trans around.own) ((cfg_of_rest rest).trans around.cfg)
      ((view_of_rest rest).trans around.view) ((inputs_of_rest rest).trans around.inputs)
  · rw [blindSurroundings.build, firstSurroundings.build, ring, around.build]

/-- In an event that does not close the ring a screw that ends in its state keeps command and belt-silence timer. -/
theorem settle_screw_kept {lim : Bool} {e : State} (running : e.running = true) (role : e.cfg.roles.screw = true)
    (rest : restOf (erectorEval (unitsEval lim e)) = restOf (unitsEval lim e))
    (ring : (erectorEval (unitsEval lim e)).build.state = .ringOpen ↔ (unitsEval lim e).build.state = .ringOpen) :
    (settle lim e).screw.state = firstChoice e
      ∧ ((settle lim e).screw.state = e.screw.state →
          (settle lim e).screw.command = e.screw.command ∧ (settle lim e).screw.beltStart = e.screw.beltStart) := by
  have again := firstChoice_again rest ring
  have there : (erectorEval (unitsEval lim e)).cfg.roles.screw = true := by
    rw [cfg_of_rest rest, roles_unitsEval]; exact role
  obtain ⟨first, firstKept⟩ := unitsEval_screw_state (lim := lim) role
  obtain ⟨second, secondKept⟩ := unitsEval_screw_state (lim := lim) there
  have screw : (settle lim e).screw = (unitsAtEnd lim e).screw := by rw [settle_shape running]
  have worked := screw_of_rest rest
  rw [screw]
  change (unitsEval lim (erectorEval (unitsEval lim e))).screw.state = _ ∧ _
  rw [again] at second secondKept
  refine ⟨second, fun same => ?_⟩
  have same : e.screw.state = firstChoice e := same.symm.trans second
  obtain ⟨command, beltStart⟩ := firstKept same
  rw [worked] at secondKept
  obtain ⟨command', beltStart'⟩ := secondKept first
  exact ⟨command'.trans command, beltStart'.trans beltStart⟩

/-- The belt-silence timer stands at `b` with the screw in BUILD HOLD, or BUILD HOLD is over for the rest of the event. -/
def timerHeld (b : Option Nat) (s : State) : Prop :=
  (s.screw.state = .buildHold ∧ s.screw.beltStart = b) ∨ ¬holdsBuild s

theorem Change.keeps_timerHeld {b : Option Nat} {s t : State} (change : Change s .eval t) (h : timerHeld b s) :
    timerHeld b t := by
  cases change
  case screwState =>
    by_cases holds : holdsBuild s
    · obtain ⟨state, start⟩ := h.resolve_right fun gone => gone holds
      rw [setScrew_same (state.trans ((screwChoice_buildHold s).2 holds).symm)]
      exact .inl ⟨state, start⟩
    · refine .inr fun again => holds ?_
      unfold setScrew at again
      split at again <;> exact again
  case openUnits =>
    refine h.imp_right fun gone holds => gone ⟨holds.1, holds.2.1, .inr ?_⟩
    exact holds.2.2.resolve_left fun ringOpen => ringOpen rfl
  case suspend building _ =>
    exact h.imp_right fun gone holds => gone ⟨holds.1, holds.2.1, .inl (by simp [building])⟩
  all_goals exact h

/-- Outside READY and in SCREW conflict the screw is STOPPED, its belt-silence timer at `b`. -/
structure StoppedStill (b : Option Nat) (s : State) : Prop where
  barred : s.life ≠ .ready ∨ s.view.screwConflict = true
  state : s.screw.state = .stopped
  start : s.screw.beltStart = b

theorem Change.keeps_stoppedStill {b : Option Nat} {s t : State} (change : Change s .eval t) (h : StoppedStill b s) :
    StoppedStill b t := by
  have same := change.sameFigures
  have barred : t.life ≠ .ready ∨ t.view.screwConflict = true := by rw [same.life, same.conflict]; exact h.barred
  cases change
  case screwState =>
    have chosen : screwChoice s = .stopped := by
      unfold screwChoice
      rw [if_pos]
      simpa using h.barred
    rw [setScrew_same (h.state.trans chosen.symm)]
    exact h
  all_goals exact ⟨barred, h.state, h.start⟩

/-- A screw that was as 06 R94 chooses it, and is so in its state as an event ends, keeps its belt-silence timer. -/
theorem settle_beltStart {lim : Bool} {e : State} (running : e.running = true) (role : e.cfg.roles.screw = true)
    (chosen : ScrewChosen e) (same : (settle lim e).screw.state = e.screw.state) :
    (settle lim e).screw.beltStart = e.screw.beltStart := by
  have now := chosen running role
  have figures := (changes_settle lim e).sameFigures
  by_cases barred : e.life ≠ .ready ∨ e.view.screwConflict = true
  · rw [if_pos barred] at now
    exact ((changes_settle lim e).keep Change.keeps_stoppedStill (⟨barred, now, rfl⟩ : StoppedStill _ e)).start
  · rw [if_neg barred] at now
    by_cases building : e.build.state ≠ .ringOpen ∨ peerBuilding e = true
    · rw [if_pos building] at now
      have held := (changes_settle lim e).keep Change.keeps_timerHeld (.inl ⟨now, rfl⟩ : timerHeld e.screw.beltStart e)
      refine (held.resolve_right fun gone => gone ?_).2
      have atEnd := screwChosen_settle (lim := lim) (settle lim e).bus running
        ((changes_settle lim e).fixed.running.trans running) (by rw [(changes_settle lim e).fixed.cfg]; exact role)
      change (settle lim e).screw.state = _ at atEnd
      rw [same, now, if_neg (by rw [figures.life, figures.conflict]; exact barred)] at atEnd
      simp only [not_or, not_not, Bool.not_eq_true] at barred
      refine ⟨figures.life.trans barred.1, figures.conflict.trans barred.2, ?_⟩
      by_contra open_
      have open_ : ¬((settle lim e).build.state ≠ .ringOpen ∨ peerBuilding (settle lim e) = true) := open_
      rw [if_neg (fun h => open_ h)] at atEnd
      split at atEnd <;> simp at atEnd
    · simp only [not_or, not_not] at building
      have ringOpen : (unitsEval lim e).build.state = .ringOpen := by
        refine (unitsEval_surroundings lim e).build.trans ?_
        unfold driveEval
        split <;> exact building.1
      obtain ⟨x, b, shape⟩ := erectorEval_shape_ringOpen ringOpen
      refine ((settle_screw_kept (lim := lim) running role ?_ ?_).2 same).2
      · rw [shape]
        rfl
      · rw [shape]

/-- An idle belt-silence timer is idle as an event ends. -/
theorem Changes.beltStart_none {s t : State} (h : Changes .eval s t) (idle : s.screw.beltStart = none) :
    t.screw.beltStart = none := by
  refine h.keep (P := fun u => u.screw.beltStart = none) (fun {u v} change kept => ?_) idle
  cases change
  case screwState => unfold setScrew; split <;> [exact kept; rfl]
  all_goals exact kept

theorem settle_beltStart_none {lim : Bool} {e : State} (idle : e.screw.beltStart = none) :
    (settle lim e).screw.beltStart = none :=
  (changes_settle lim e).beltStart_none idle

/-! ### The spoil part as an event ends -/

/-- Of the spoil part the end of an event without SET can only flag PRESSURE BLIND. -/
theorem settle_spoil {lim : Bool} {e : State} {α : Type} (f : SpoilPart → α)
    (blindless : ∀ p, f { p with pressureBlind := true } = f p)
    (free : e.cfg.roles.erector = true → ¬setDue (unitsEval lim e)) :
    (settle lim e).records.current.spoil.map f = e.records.current.spoil.map f := by
  have units : ∀ u, (unitsEval lim u).records.current.spoil.map f = u.records.current.spoil.map f := by
    intro u
    rcases unitsEval_records lim u with same | flagged
    · rw [same]
    · rw [flagged]
      change (u.records.current.spoil.map _).map f = _
      rw [Option.map_map]
      congr 1
      funext p
      exact blindless p
  unfold settle
  split
  · change (injectionEval (unitsAtEnd lim e)).records.current.spoil.map f = _
    rw [injectionEval_records]
    exact (units _).trans ((congrArg (Option.map f) (spoil_of_rest (rest_worked free))).trans (units e))
  · rfl

/-! ### Belt and additive pulses -/

/-- The station after a belt pulse, before the event ends. -/
def beltTaken (s : State) : State :=
  beltHeard (onSpoilPart (spoilBelt s.cfg.beltScale) { s with train := trainPulse s.cfg.beltScale s.train })

/-- The station after an additive pulse, before the event ends. -/
def additiveTaken (s : State) : State :=
  onSpoilPart (spoilAdditive s.cfg.addScale) { s with train := trainAdditive s.cfg.addScale s.train }

theorem exec_beltPulse {s : State} (running : s.running = true) (role : s.cfg.roles.screw = true) :
    exec .beltPulse s = .next (settle false (beltTaken s)) :=
  congrArg Host.Outcome.next (if_pos (by simp [running, role]))

theorem exec_additivePulse {s : State} (running : s.running = true) (role : s.cfg.roles.screw = true) :
    exec .additivePulse s = .next (settle false (additiveTaken s)) :=
  congrArg Host.Outcome.next (if_pos (by simp [running, role]))

theorem base_beltPulse (s : State) : baseOf (settle false (beltTaken s)) =
    { baseOf s with
      cars := (trainPulse s.cfg.beltScale s.train).cars
      mass := (trainPulse s.cfg.beltScale s.train).mass
      overflow := (trainPulse s.cfg.beltScale s.train).overflow
      beltSilent := false } := by
  have levels : (trainPulse s.cfg.beltScale s.train).holdLevel = s.train.holdLevel
      ∧ (trainPulse s.cfg.beltScale s.train).slowLevel = s.train.slowLevel := by
    unfold trainPulse
    repeat' split
    all_goals exact ⟨rfl, rfl⟩
  rw [base_settle]
  simp only [baseOf, beltTaken, beltHeard, onSpoilPart, levels]

/-- The cars before the FILLING car are left as they stand. -/
theorem fillCars_append {isOver : Bool} {kg : Nat} {before : List Car} (rest : List Car)
    (none : before.all (fun x => x.state ≠ .filling) = true) :
    fillCars isOver kg (before ++ rest) = before ++ fillCars isOver kg rest := by
  induction before with
  | nil => rfl
  | cons c cs ih =>
    simp only [List.all_cons, Bool.and_eq_true, decide_eq_true_eq] at none
    rw [List.cons_append, fillCars, if_neg none.1, ih none.2, List.cons_append]

theorem fillCars_filling {isOver : Bool} {kg : Nat} {c : Car} {cars : List Car} (filling : c.state = .filling) :
    fillCars isOver kg (c :: cars) =
      if c.capacity ≤ c.filled + kg then { c with filled := c.filled + kg, state := .full } :: startNextCar isOver cars
      else { c with filled := c.filled + kg } :: cars := by
  rw [fillCars, if_pos filling]

theorem startNextCar_waiting {isOver : Bool} {cars : List Car} (waiting : cars.all (fun x => x.state = .waiting) = true) :
    startNextCar isOver cars =
      cars.modify 0 (fun x => { x with state := .filling, flagOver := x.flagOver || isOver }) := by
  cases cars with
  | nil => rfl
  | cons c cs =>
    simp only [List.all_cons, Bool.and_eq_true, decide_eq_true_eq] at waiting
    rw [startNextCar, if_pos waiting.1]
    rfl

theorem anyFilling_middle {before after : List Car} {c : Car} (filling : c.state = .filling) :
    anyFilling (before ++ c :: after) = true := by
  simp [anyFilling, filling]

theorem trainPulse_filling {kg : Nat} {t : Train} {before after : List Car} {c : Car} (room : t.mass + kg ≤ 9999999)
    (cars : t.cars = before ++ c :: after) (none : before.all (fun x => x.state ≠ .filling) = true)
    (filling : c.state = .filling) :
    trainPulse kg t =
      { t with cars := before ++ fillCars t.reasons.isOver kg (c :: after), mass := t.mass + kg } := by
  unfold trainPulse
  rw [if_neg (by omega), cars, if_pos (anyFilling_middle filling), fillCars_append _ none]

theorem trainPulse_overflow {kg : Nat} {t : Train} (room : t.mass + kg ≤ 9999999)
    (none : t.cars.all (fun x => x.state ≠ .filling) = true) :
    trainPulse kg t = { t with overflow := t.overflow + kg, mass := t.mass + kg } := by
  have idle : anyFilling t.cars = false := by simpa [anyFilling] using none
  unfold trainPulse
  rw [if_neg (by omega), idle]
  rfl

theorem trainPulse_limit {kg : Nat} {t : Train} (full : 9999999 < t.mass + kg) : trainPulse kg t = t := if_pos full

/-- Settles O37: train and belt timer by the pulse's rules and the base, the spoil part by the end of an event. -/
theorem pulsesCounted : Obligations.PulsesCounted := by
  unfold Obligations.PulsesCounted
  refine ⟨fun before after c s running role cars none filling room below => ?_,
    fun before after c s running role cars none filling room full waiting => ?_,
    fun s running role none room => ?_, fun s running role full => ?_, fun p s running role part waits => ?_,
    fun p s running role part waits => ?_, fun s running role => ?_, fun t0 s running started => ?_, fun s idle => ?_⟩
  · refine ⟨_, exec_beltPulse running role, (base_beltPulse s).trans ?_⟩
    rw [trainPulse_filling room cars none filling, fillCars_filling filling, if_neg (by omega)]
    rfl
  · refine ⟨_, exec_beltPulse running role, (base_beltPulse s).trans ?_⟩
    rw [trainPulse_filling room cars none filling, fillCars_filling filling, if_pos full,
      startNextCar_waiting waiting]
    rfl
  · refine ⟨_, exec_beltPulse running role, (base_beltPulse s).trans ?_⟩
    rw [trainPulse_overflow room none]
    rfl
  · refine ⟨_, exec_beltPulse running role, (base_beltPulse s).trans ?_⟩
    rw [trainPulse_limit full]
    rfl
  · refine ⟨_, exec_beltPulse running role,
      (settle_spoil (e := beltTaken s) _ (fun _ => rfl) (free_of_seq waits)).trans ?_⟩
    change (s.records.current.spoil.map _).map _ = _
    rw [part]
    simp only [Option.map_some, spoilBelt]
    split <;> rfl
  · refine ⟨_, exec_additivePulse running role,
      (settle_spoil (e := additiveTaken s) _ (fun _ => rfl) (free_of_seq waits)).trans ?_,
      base_settle false (additiveTaken s)⟩
    change (s.records.current.spoil.map _).map _ = _
    rw [part]
    simp only [Option.map_some, spoilAdditive]
    split <;> rfl
  · refine ⟨_, exec_beltPulse running role, fun chosen same => ?_⟩
    rw [settle_beltStart (e := beltTaken s) running role chosen same]
    exact if_congr (Bool.and_eq_true_iff.trans (and_congr decide_eq_true_iff decide_eq_true_iff)) rfl rfl
  · have alive : (beltSilent (clockTo (t0 + s.screw.beltTime * 1000) s)).running = true := running
    have ends : beltSilenceExpiry s = settle false (beltSilent (clockTo (t0 + s.screw.beltTime * 1000) s)) := by
      unfold beltSilenceExpiry
      rw [started]
      exact if_pos running
    have base := base_settle false (beltSilent (clockTo (t0 + s.screw.beltTime * 1000) s))
    refine ⟨_, congrArg Host.Outcome.next ends, ?_, base, fun role => ?_⟩
    · exact settle_beltStart_none rfl
    · obtain ⟨_, _, _, held, _⟩ := paceFollows_at_end (lim := false) alive ((running_settle false _).trans alive)
        (by rw [cfg_of_base (base_settle _ _)]; exact role)
      exact held.2 (.inr (.inr (.inr (.inl (congrArg Base.beltSilent base)))))
  · have same : beltSilenceExpiry s = s := by unfold beltSilenceExpiry; rw [idle]
    exact congrArg Host.Outcome.next same

end Sys2Proof.Machine
end

section
/-! PROOF. The control second: L_ring, face, spoil account, pump rate and the record's seconds (01 R11; 06 R96 to R100; 07
R116; 08 R127, R128; 09 R138 to R142). -/

namespace Sys2Proof.Machine

open Sys2Proof

/-! ### The parts of a control second -/

theorem updateRingAdvance_eq (s : State) :
    updateRingAdvance s = { s with view := { s.view with lring := max s.view.lring (ringMean s) } } := by
  unfold updateRingAdvance
  split
  · next above => rw [Nat.max_eq_right (Nat.le_of_lt above)]
  · next below => rw [Nat.max_eq_left (Nat.le_of_not_lt below)]

/-- The judgement against the band (06 R100). -/
def outOfBand (s : State) : Bool :=
  match s.screw.target, controlPressure s with
  | some target, some pc =>
    decide (s.screw.state ≠ .stopped)
      && !(decide (target ≤ pc + s.screw.band) && decide (pc ≤ target + s.screw.band))
  | _, _ => false

theorem bandSecond_eq (s : State) :
    bandSecond s = { s with screw := { s.screw with pressureBand := outOfBand s }, records := (bandSecond s).records } := by
  unfold bandSecond outOfBand
  cases s.screw.target with
  | none => rfl
  | some target =>
    cases controlPressure s with
    | none => rfl
    | some pc =>
      dsimp only
      split
      · next stopped => simp [stopped]
      · next turns =>
        have turning : decide (s.screw.state ≠ .stopped) = true := decide_eq_true turns
        split
        · next within => rw [within, Bool.not_true, Bool.and_false]
        · next beyond =>
          rw [Bool.eq_false_iff.2 beyond, turning]
          rfl

/-- Of the spoil part the judgement against the band writes its own flag. -/
theorem bandSecond_records (s : State) :
    (bandSecond s).records = s.records
      ∨ (bandSecond s).records = (onSpoilPart (fun p => { p with pressureBand := true }) s).records := by
  unfold bandSecond
  repeat' split
  · exact .inl rfl
  · exact .inl rfl
  · exact .inr rfl
  · exact .inl rfl

theorem screwSecond_eq (s : State) : screwSecond s = { s with screw := (screwSecond s).screw } := by
  unfold screwSecond
  dsimp only
  split <;> rfl

/-- A control second at a screw that is not RUNNING, without P_t or P_c, takes the advance sample alone. -/
theorem screwSecond_kept (s : State) :
    (screwSecond s).screw =
      { s.screw with
        sample := s.view.lring, command := (screwSecond s).screw.command
        beltStart := (screwSecond s).screw.beltStart } := by
  unfold screwSecond
  dsimp only
  split <;> rfl

theorem screwSecond_command {s : State} {target pc : Nat} (running : s.screw.state = .running)
    (there : s.screw.target = some target) (pressure : controlPressure s = some pc) :
    (screwSecond s).screw.command =
        slewed s.cfg.nmax s.screw.command (rawCommand s (s.view.lring - s.screw.sample) pc target)
      ∧ (screwSecond s).screw.beltStart =
          (if (screwSecond s).screw.command = 0 then none
           else if s.screw.command = 0 then some s.clock.now
           else s.screw.beltStart) := by
  unfold screwSecond
  simp only [running, there, pressure]
  trivial

theorem slewed_eq (nmax prev : Nat) (raw : Int) :
    (slewed nmax prev raw : Int) =
      max 0 (min (if (prev : Int) + 5 < raw then (prev : Int) + 5 else if raw < (prev : Int) - 5 then (prev : Int) - 5 else raw)
        nmax) := by
  unfold slewed
  dsimp only
  split
  · omega
  · split <;> omega

theorem faceSecond_eq (s : State) :
    faceSecond s = { s with screw := (faceSecond s).screw, records := (faceSecond s).records } := by
  unfold faceSecond
  split
  · rw [bandSecond_eq, screwSecond_eq]
  · rfl

theorem spoilSecond_eq (s : State) :
    spoilSecond s = { s with train := (spoilSecond s).train, records := (spoilSecond s).records } := by
  unfold spoilSecond
  split <;> rfl

theorem groutSecond_eq (s : State) :
    groutSecond s = { s with grout := (groutSecond s).grout, records := (groutSecond s).records } := by
  unfold groutSecond
  dsimp only
  repeat' split
  all_goals rfl

/-- The station as the control timer is started again. -/
def timerRestarted (d : Nat) (s : State) : State :=
  { s with clock := { s.clock with now := max s.clock.now d, controlDue := some (d + 1000) } }

/-- The station after the L_ring update of a control second. -/
def ringUpdated (d : Nat) (s : State) : State :=
  { timerRestarted d s with view := { s.view with lring := max s.view.lring (ringMean s) } }

theorem secondDone_eq (d : Nat) (s : State) :
    secondDone d s = countSeconds (groutSecond (spoilSecond (faceSecond (ringUpdated d s)))) := by
  have first : updateRingAdvance (timerRestarted d s) = ringUpdated d s := updateRingAdvance_eq _
  rw [← first]
  rfl

theorem secondDone_screw (d : Nat) (s : State) : (secondDone d s).screw = (faceSecond (ringUpdated d s)).screw := by
  rw [secondDone_eq, countSeconds_screw, groutSecond_eq, spoilSecond_eq]

theorem secondDone_train (d : Nat) (s : State) :
    (secondDone d s).train = (spoilSecond (faceSecond (ringUpdated d s))).train := by
  rw [secondDone_eq, countSeconds_train, groutSecond_eq]

/-- The screw after a control second, before the event ends (06 R96 to R100). -/
theorem faceSecond_screw {s : State} (role : s.cfg.roles.screw = true) :
    (faceSecond s).screw = { (screwSecond s).screw with pressureBand := outOfBand s } := by
  unfold faceSecond
  rw [if_pos role, bandSecond_eq, screwSecond_eq]
  have judged : outOfBand { s with screw := (screwSecond s).screw } = outOfBand s := by
    unfold outOfBand
    rw [screwSecond_kept]
    rfl
  rw [judged]

theorem faceSecond_absent {s : State} (role : s.cfg.roles.screw ≠ true) : faceSecond s = s := if_neg role

/-- The train after a control second, before the event ends (07 R116). -/
theorem spoilSecond_train {s : State} (role : s.cfg.roles.screw = true) :
    (spoilSecond s).train = (judgeOver (overJudgement (accountSpoil s)) s).train := by
  unfold spoilSecond
  rw [if_pos role]
  rfl

theorem spoilSecond_absent {s : State} (role : s.cfg.roles.screw ≠ true) : spoilSecond s = s := if_neg role

theorem secondDone_eta (d : Nat) (s : State) :
    secondDone d s =
      { ringUpdated d s with
        screw := (secondDone d s).screw, train := (secondDone d s).train, grout := (secondDone d s).grout
        records := (secondDone d s).records } := by
  rw [secondDone_eq, groutSecond_eq, spoilSecond_eq, faceSecond_eq]
  rfl

/-- The flag OVER goes to the FILLING car as OVER joins. -/
theorem secondDone_cars (d : Nat) (s : State) :
    (secondDone d s).train =
      { s.train with
        cars :=
          if (secondDone d s).train.reasons.isOver && !s.train.reasons.isOver then
            s.train.cars.map (fun c => if c.state = .filling then { c with flagOver := true } else c)
          else s.train.cars
        reasons := { s.train.reasons with isOver := (secondDone d s).train.reasons.isOver } } := by
  have face : (faceSecond (ringUpdated d s)).train = s.train := by rw [faceSecond_eq]; rfl
  rw [secondDone_train]
  by_cases role : s.cfg.roles.screw = true
  · have there : (faceSecond (ringUpdated d s)).cfg.roles.screw = true := by rw [faceSecond_eq]; exact role
    rw [spoilSecond_train there]
    unfold judgeOver flagFilling
    rw [face]
  · have absent : (faceSecond (ringUpdated d s)).cfg.roles.screw ≠ true := by rw [faceSecond_eq]; exact role
    rw [spoilSecond_absent absent, face]
    simp

theorem secondDone_screw_kept (d : Nat) (s : State) :
    (secondDone d s).screw =
      { s.screw with
        sample := (secondDone d s).screw.sample, command := (secondDone d s).screw.command
        beltStart := (secondDone d s).screw.beltStart, pressureBand := (secondDone d s).screw.pressureBand } := by
  rw [secondDone_screw]
  by_cases role : s.cfg.roles.screw = true
  · rw [faceSecond_screw (by exact role), screwSecond_kept]
    rfl
  · rw [faceSecond_absent (by exact role)]
    rfl

theorem base_secondDone (d : Nat) (s : State) :
    baseOf (secondDone d s) =
      { baseOf s with
        clock := { s.clock with now := max s.clock.now d, controlDue := some (d + 1000) }
        pressureBand := (secondDone d s).screw.pressureBand
        cars := (secondDone d s).train.cars } := by
  have grout : ∀ u : State, (groutSecond u).grout =
      { u.grout with
        sample := (groutSecond u).grout.sample, rate := (groutSecond u).grout.rate
        saturated := (groutSecond u).grout.saturated } := by
    intro u
    unfold groutSecond
    dsimp only
    repeat' split
    all_goals rfl
  have line : (secondDone d s).grout =
      { s.grout with
        sample := (secondDone d s).grout.sample, rate := (secondDone d s).grout.rate
        saturated := (secondDone d s).grout.saturated } := by
    rw [secondDone_eq, countSeconds_grout, grout, spoilSecond_eq, faceSecond_eq]
    rfl
  rw [secondDone_eta]
  unfold baseOf
  dsimp only
  rw [secondDone_screw_kept, secondDone_cars, line]
  rfl

/-! ### The figures of a control second -/

section
variable {d : Nat} {s : State}

theorem exec_controlSecond (due : s.clock.controlDue = some d) :
    exec .controlSecond s = .next (settle true (secondDone d s)) :=
  congrArg Host.Outcome.next (controlSecond_due due)

theorem running_secondDone (running : s.running = true) : (secondDone d s).running = true := by
  rw [secondDone_eta]
  exact running

theorem waits_secondDone (waits : s.erector.seq ≠ .awaitingPress) : (secondDone d s).erector.seq ≠ .awaitingPress := by
  rw [secondDone_eta]
  exact waits

/-- An event without a SET leaves the figures of the ring to its rules. -/
theorem ring_secondDone (waits : s.erector.seq ≠ .awaitingPress) :
    ringOf (settle true (secondDone d s)) = ringOf (secondDone d s) :=
  ring_settle true (waits_secondDone waits)

end

/-- Settles O33: what the rules of a control second write, and the end of an event that keeps a RUNNING screw. -/
theorem controlSecondSetsScrew : Obligations.ControlSecondSetsScrew := by
  intro d s running due waits
  have alive := running_secondDone (d := d) running
  have ring := ring_secondDone (d := d) waits
  have base := (base_settle true (secondDone d s)).trans (base_secondDone d s)
  have screw := secondDone_screw_kept d s
  have train := secondDone_cars d s
  have clock : (settle true (secondDone d s)).clock =
      { s.clock with now := max s.clock.now d, controlDue := some (d + 1000) } := congrArg Base.clock base
  refine ⟨_, exec_controlSecond due, ?_, clock, settle_vlim alive, ?_, fun role => ?_⟩
  · refine (congrArg RingPart.lring ring).trans ?_
    change (secondDone d s).view.lring = _
    rw [secondDone_eta]
    rfl
  · have over_ : (settle true (secondDone d s)).train.reasons.isOver = (secondDone d s).train.reasons.isOver :=
      congrArg RingPart.isOver ring
    have band : (settle true (secondDone d s)).screw.pressureBand = (secondDone d s).screw.pressureBand :=
      congrArg Base.pressureBand base
    refine base.trans ?_
    rw [clock, band, over_, train]
  · have face := faceSecond_screw (s := ringUpdated d s) role
    rw [← secondDone_screw] at face
    refine ⟨?_, ?_, fun target pc there pressure turns stays => ?_⟩
    · refine (congrArg RingPart.screwSample ring).trans ?_
      change (secondDone d s).screw.sample = _
      rw [face, screwSecond_kept]
      rfl
    · refine (congrArg Base.pressureBand base).trans ?_
      change (secondDone d s).screw.pressureBand = _
      rw [face]
      rfl
    · have free := free_of_seq (lim := true) (waits_secondDone (d := d) waits)
      have ringOpen := erectorEval_ringOpen (s := unitsEval true (secondDone d s)) (by rw [roles_unitsEval]; exact free)
      have same : (secondDone d s).screw.state = s.screw.state := by rw [screw]
      have there' : (secondDone d s).cfg.roles.screw = true := by rw [secondDone_eta]; exact role
      obtain ⟨command, beltStart⟩ :=
        (settle_screw_kept alive there' (rest_worked free) ringOpen).2 (by rw [stays, same, turns])
      obtain ⟨made, started⟩ := screwSecond_command (s := ringUpdated d s) turns there pressure
      dsimp only
      rw [command, beltStart, face, clock]
      dsimp only
      refine ⟨?_, started⟩
      rw [made, slewed_eq]
      rfl

end Sys2Proof.Machine
end

section
/-! PROOF. What a control second counts: the record's seconds, the spoil account, the pump rate and LINE SATURATED (07 R116;
08 R127, R128; 09 R138 to R142). -/

namespace Sys2Proof.Machine

open Sys2Proof

/-! ### The line in INJECTING -/

theorem tailEval_rates (s : State) :
    (tailEval s).grout.line = s.grout.line ∧ (tailEval s).grout.saturated = s.grout.saturated := by
  unfold tailEval
  repeat' split
  all_goals exact ⟨rfl, rfl⟩

/-- A line that stays INJECTING keeps LINE SATURATED. -/
theorem injectionEval_saturated {s : State} (before : s.grout.line = .injecting)
    (after : (injectionEval s).grout.line = .injecting) : (injectionEval s).grout.saturated = s.grout.saturated := by
  obtain ⟨line, saturated⟩ := tailEval_rates s
  unfold injectionEval at after ⊢
  simp only [line, before] at after ⊢
  split at after
  · next holds => rw [if_pos holds]; exact saturated
  · cases after

theorem settle_saturated {lim : Bool} {e : State} (running : e.running = true)
    (free : e.cfg.roles.erector = true → ¬setDue (unitsEval lim e)) (before : e.grout.line = .injecting)
    (after : (settle lim e).grout.line = .injecting) : (settle lim e).grout.saturated = e.grout.saturated := by
  have grout := grout_unitsAtEnd free
  rw [settle_grout running] at after ⊢
  rw [injectionEval_saturated (by rw [grout]; exact before) after, grout]

/-- The pump rate and LINE SATURATED of a control second at a ready line (08 R127, R128). -/
theorem groutSecond_ready {s : State} (ready : lineReady s.grout.line = true) :
    (groutSecond s).grout.line = s.grout.line
      ∧ (groutSecond s).grout.rate = min (computedRate s (s.thrust.advance - s.grout.sample)) s.cfg.pumpMax
      ∧ (groutSecond s).grout.sample = s.thrust.advance
      ∧ (s.grout.line = .injecting → (groutSecond s).grout.saturated =
          decide (s.cfg.pumpMax < computedRate s (s.thrust.advance - s.grout.sample))) := by
  have present : s.grout.line ≠ .absent := fun absent => by rw [absent] at ready; cases ready
  unfold groutSecond
  rw [if_neg present]
  dsimp only
  rw [if_pos ready]
  split
  · split
    · next high => exact ⟨rfl, rfl, rfl, fun _ => (decide_eq_true high).symm⟩
    · next low => exact ⟨rfl, rfl, rfl, fun _ => (decide_eq_false low).symm⟩
  · next other => exact ⟨rfl, rfl, rfl, fun injects => absurd injects other⟩

/-! ### What the record counts -/

theorem groutSecond_records (s : State) :
    (groutSecond s).records = s.records
      ∨ (groutSecond s).records = (onGroutPart (fun g => { g with lineSaturated := true }) s).records := by
  unfold groutSecond
  dsimp only
  repeat' split
  · exact .inl rfl
  · exact .inr rfl
  · exact .inl rfl
  · exact .inl rfl
  · exact .inl rfl

/-- What a record counts apart from its parts: the seconds, with the limits that judge it. -/
def countsOf (s : State) : Nat × Nat × Limits :=
  (s.records.current.advanceSeconds, s.records.current.buildSeconds, s.records.limits)

theorem countsOf_faceSecond (s : State) : countsOf (faceSecond s) = countsOf s := by
  unfold faceSecond countsOf
  split
  · rcases bandSecond_records (screwSecond s) with same | flagged
    · rw [same, screwSecond_eq]
    · rw [flagged, screwSecond_eq]
      rfl
  · rfl

theorem countsOf_spoilSecond (s : State) : countsOf (spoilSecond s) = countsOf s := by
  unfold spoilSecond
  split <;> rfl

theorem countsOf_groutSecond (s : State) : countsOf (groutSecond s) = countsOf s := by
  unfold countsOf
  rcases groutSecond_records s with same | flagged
  · rw [same]
  · rw [flagged]
    rfl

/-- The record's seconds at a control second (09 R138). -/
theorem secondDone_seconds (d : Nat) (s : State) :
    (secondDone d s).records.current.advanceSeconds =
        (if s.thrust.mode = .advance then min (s.records.current.advanceSeconds + 1) 65535
         else s.records.current.advanceSeconds)
      ∧ (secondDone d s).records.current.buildSeconds =
        (if s.build.state ≠ .ringOpen then min (s.records.current.buildSeconds + 1) 65535
         else s.records.current.buildSeconds) := by
  have counts : countsOf (groutSecond (spoilSecond (faceSecond (ringUpdated d s)))) = countsOf s := by
    rw [countsOf_groutSecond, countsOf_spoilSecond, countsOf_faceSecond]
    rfl
  have thrust : (groutSecond (spoilSecond (faceSecond (ringUpdated d s)))).thrust = s.thrust := by
    rw [groutSecond_eq, spoilSecond_eq, faceSecond_eq]
    rfl
  have build : (groutSecond (spoilSecond (faceSecond (ringUpdated d s)))).build = s.build := by
    rw [groutSecond_eq, spoilSecond_eq, faceSecond_eq]
    rfl
  obtain ⟨advance, ring⟩ := Prod.mk.inj counts
  obtain ⟨ring, _⟩ := Prod.mk.inj ring
  rw [secondDone_eq]
  unfold countSeconds
  dsimp only
  rw [thrust, build, advance, ring]
  exact ⟨rfl, rfl⟩

/-! ### The spoil account -/

theorem faceSecond_spoil {s : State} {p : SpoilPart} (part : s.records.current.spoil = some p) :
    ∃ b, (faceSecond s).records.current.spoil = some { p with pressureBand := b } := by
  unfold faceSecond
  split
  · rcases bandSecond_records (screwSecond s) with same | flagged
    · exact ⟨p.pressureBand, by rw [same, screwSecond_eq]; exact part⟩
    · refine ⟨true, ?_⟩
      rw [flagged, screwSecond_eq]
      change s.records.current.spoil.map _ = _
      rw [part]
      rfl
  · exact ⟨p.pressureBand, part⟩

/-- The account of a spoil part reads volume, masses and limits. -/
theorem accountPart_faceSecond (s : State) (p : SpoilPart) : accountPart (faceSecond s) p = accountPart s p := by
  have limits : (faceSecond s).records.limits = s.records.limits := by
    have counts := countsOf_faceSecond s
    exact (Prod.mk.inj (Prod.mk.inj counts).2).2
  unfold accountPart
  rw [limits]
  have volume : excavated (faceSecond s) = excavated s := by rw [faceSecond_eq]; rfl
  have net : removed (faceSecond s) = removed s := by rw [faceSecond_eq]; rfl
  have ratio : balanceRatio (faceSecond s) = balanceRatio s := by rw [faceSecond_eq]; rfl
  rw [volume, net, ratio]

/-- An absent ratio is neither above the upper nor below the lower limit (09 R142). -/
theorem accountPart_judged (s : State) (p : SpoilPart) :
    (accountPart s p).isOver = (p.isOver || decide (s.records.limits.upper < (accountPart s p).ratio.getD 0))
      ∧ (accountPart s p).isUnder =
          (p.isUnder || decide ((accountPart s p).ratio.getD s.records.limits.lower < s.records.limits.lower)) := by
  unfold accountPart
  cases ratio : balanceRatio s (excavated s) (removed s p.belt p.additive) <;> simp [ratio]

theorem overJudgement_eq {s : State} {p : SpoilPart} (part : s.records.current.spoil = some p) :
    overJudgement s = decide (s.records.limits.upper < p.ratio.getD 0) := by
  unfold overJudgement
  rw [part]
  cases ratio : p.ratio <;> simp [ratio]

/-- The spoil part after a control second, before the event ends (09 R141, R142). -/
theorem secondDone_spoil {d : Nat} {s : State} {p : SpoilPart} (role : s.cfg.roles.screw = true)
    (part : s.records.current.spoil = some p) :
    ∃ b, (secondDone d s).records.current.spoil = some (accountPart (ringUpdated d s) { p with pressureBand := b })
      ∧ (secondDone d s).train.reasons.isOver =
          decide (s.records.limits.upper < (accountPart (ringUpdated d s) { p with pressureBand := b }).ratio.getD 0) := by
  obtain ⟨b, face⟩ := faceSecond_spoil (s := ringUpdated d s) part
  have there : (faceSecond (ringUpdated d s)).cfg.roles.screw = true := by rw [faceSecond_eq]; exact role
  have counted : (accountSpoil (faceSecond (ringUpdated d s))).records.current.spoil =
      some (accountPart (ringUpdated d s) { p with pressureBand := b }) := by
    change (faceSecond (ringUpdated d s)).records.current.spoil.map _ = _
    rw [face, Option.map_some, accountPart_faceSecond]
  have limits : (faceSecond (ringUpdated d s)).records.limits = s.records.limits :=
    (Prod.mk.inj (Prod.mk.inj (countsOf_faceSecond (ringUpdated d s))).2).2
  refine ⟨b, ?_, ?_⟩
  · rw [secondDone_eq]
    change (groutSecond _).records.current.spoil = _
    have kept : ∀ u : State, (groutSecond u).records.current.spoil = u.records.current.spoil := by
      intro u
      rcases groutSecond_records u with same | flagged
      · rw [same]
      · rw [flagged]
        rfl
    rw [kept]
    unfold spoilSecond
    rw [if_pos there]
    exact counted
  · rw [secondDone_train, spoilSecond_train there, judgeOver_train_reasons_isOver]
    rw [overJudgement_eq counted]
    change decide ((faceSecond (ringUpdated d s)).records.limits.upper < _) = _
    rw [limits]

/-- Settles O34: what the rules of a control second write, and an event's end that keeps it without a SET. -/
theorem controlSecondKeepsAccounts : Obligations.ControlSecondKeepsAccounts := by
  refine ⟨fun d s running due waits advance build => ?_, fun d s running due waits ready => ?_, fun s idle => ?_⟩
  · have ring := ring_secondDone (d := d) waits
    have free := free_of_seq (lim := true) (waits_secondDone (d := d) waits)
    obtain ⟨advanced, built⟩ := secondDone_seconds d s
    refine ⟨_, exec_controlSecond due, ?_, ?_, fun p part role => ?_⟩
    · refine (congrArg RingPart.advanceSeconds ring).trans (advanced.trans ?_)
      split <;> omega
    · refine (congrArg RingPart.buildSeconds ring).trans (built.trans ?_)
      split <;> omega
    · obtain ⟨b, spoil, judged⟩ := secondDone_spoil (d := d) role part
      have shown : ∀ {α : Type} (f : SpoilPart → α), (∀ p, f { p with pressureBlind := true } = f p) →
          (settle true (secondDone d s)).records.current.spoil.map f =
            some (f (accountPart (ringUpdated d s) { p with pressureBand := b })) := fun f blindless => by
        rw [settle_spoil f blindless free, spoil, Option.map_some]
      obtain ⟨high, low⟩ := accountPart_judged (ringUpdated d s) { p with pressureBand := b }
      exact ⟨shown _ fun _ => rfl, shown _ fun _ => rfl, shown _ fun _ => rfl, shown _ fun _ => rfl,
        (shown _ fun _ => rfl).trans (congrArg some high), (shown _ fun _ => rfl).trans (congrArg some low),
        (congrArg RingPart.isOver ring).trans judged⟩
  · have free := free_of_seq (lim := true) (waits_secondDone (d := d) waits)
    have alive := running_secondDone (d := d) running
    have grout : (spoilSecond (faceSecond (ringUpdated d s))).grout = s.grout := by
      rw [spoilSecond_eq, faceSecond_eq]
      rfl
    obtain ⟨line, rate, sample, saturated⟩ := groutSecond_ready (s := spoilSecond (faceSecond (ringUpdated d s)))
      (by rw [grout]; exact (lineReady_iff _).2 ready)
    have made : (groutSecond (spoilSecond (faceSecond (ringUpdated d s)))).grout = (secondDone d s).grout := by
      rw [secondDone_eq]; rfl
    rw [made] at line rate sample saturated
    rw [grout] at line
    have computed : computedRate (spoilSecond (faceSecond (ringUpdated d s)))
        ((spoilSecond (faceSecond (ringUpdated d s))).thrust.advance -
          (spoilSecond (faceSecond (ringUpdated d s))).grout.sample) =
        roundNat ((s.thrust.advance - s.grout.sample) * s.cfg.aa * s.grout.active.ratio * 60)
          (1000 * max (groutReady s) 1 * s.cfg.vs) := by
      rw [spoilSecond_eq, faceSecond_eq]
      rfl
    have most : (spoilSecond (faceSecond (ringUpdated d s))).cfg.pumpMax = s.cfg.pumpMax := by
      rw [spoilSecond_eq, faceSecond_eq]
      rfl
    have advance : (spoilSecond (faceSecond (ringUpdated d s))).thrust.advance = s.thrust.advance := by
      rw [spoilSecond_eq, faceSecond_eq]
      rfl
    rw [computed, most] at rate saturated
    obtain ⟨_, kept⟩ := settle_line_ready (lim := true) alive (by rw [line]; exact (lineReady_iff _).2 ready) free
    refine ⟨_, exec_controlSecond due, kept.trans rate, ?_, fun before after => ?_⟩
    · exact (congrArg RingPart.groutSample (ring_secondDone (d := d) waits)).trans (sample.trans advance)
    · exact (settle_saturated alive free (line.trans before) after).trans (saturated (by rw [grout]; exact before))
  · exact congrArg Host.Outcome.next (controlSecond_idle idle)

end Sys2Proof.Machine
end

section
/-! PROOF. A STANDBY with nothing to work as an event ends, and the commands of the ring record unit (09 R147 to R149, 10
R160). -/

namespace Sys2Proof.Machine

open Sys2Proof

/-! ### A STANDBY outside a build -/

theorem seqSteps_standby (n : Nat) {s : State} (standby : s.erector.seq = .standby) (idle : s.build.state ≠ .building) :
    seqSteps n s = s := by
  have stays : seqStep s = s := by
    unfold seqStep
    split
    · exact if_neg (by simp [idle])
    all_goals next other _ => simp_all
  induction n with
  | zero => rfl
  | succ n ih =>
    unfold seqSteps
    rw [stays, ih, ite_self]

theorem erectorEval_standby {s : State} (standby : s.erector.seq = .standby) (idle : s.build.state ≠ .building) :
    erectorEval s = s := by
  unfold erectorEval
  rw [seqSteps_standby 8 standby idle, ite_self]

/-- Outside a build an event that leaves the sequence in STANDBY ends with erector unit and plan as they stand. -/
theorem settle_standby {lim : Bool} {e : State} (standby : e.erector.seq = .standby) (idle : e.build.state ≠ .building) :
    (settle lim e).erector = e.erector ∧ planOf (settle lim e) = planOf e := by
  have rests : erectorEval (unitsEval lim e) = unitsEval lim e :=
    erectorEval_standby (by rw [erector_unitsEval]; exact standby) (by rw [unitsEval_build_state]; exact idle)
  unfold settle
  split
  · refine ⟨?_, ?_⟩
    · change (injectionEval _).erector = _
      rw [injectionEval_eq, rests]
      exact (erector_unitsEval _ _).trans (erector_unitsEval _ _)
    · change planOf (injectionEval _) = _
      rw [plan_injectionEval, plan_unitsEval, rests, plan_unitsEval]
  · exact ⟨rfl, rfl⟩

/-- The current record keeps its ring number as an event ends without a SET. -/
theorem settle_currentRing {lim : Bool} {e : State} (free : e.cfg.roles.erector = true → ¬setDue (unitsEval lim e)) :
    (settle lim e).records.current.ring = e.records.current.ring := by
  have units : ∀ u, (unitsEval lim u).records.current.ring = u.records.current.ring := by
    intro u
    rcases unitsEval_records lim u with same | flagged
    · rw [same]
    · rw [flagged]
      rfl
  have worked : (erectorEval (unitsEval lim e)).records.current.ring = (unitsEval lim e).records.current.ring := by
    have same := congrArg (fun s => s.records.current.ring) (rest_worked free)
    exact same
  unfold settle
  split
  · change (injectionEval (unitsAtEnd lim e)).records.current.ring = _
    rw [injectionEval_records]
    exact (units _).trans (worked.trans (units e))
  · rfl

/-- Without a carried tail an event that sends no SET carries none. -/
theorem settle_tail_none {lim : Bool} {e : State} (running : e.running = true)
    (free : e.cfg.roles.erector = true → ¬setDue (unitsEval lim e)) (untailed : e.grout.tail = none) :
    (settle lim e).grout.tail = none := by
  have before : (unitsAtEnd lim e).grout.tail = none := by rw [grout_unitsAtEnd free]; exact untailed
  have still : tailEval (unitsAtEnd lim e) = unitsAtEnd lim e := by
    unfold tailEval
    rw [before]
  rw [settle_grout running]
  unfold injectionEval
  rw [still]
  dsimp only
  repeat' split
  all_goals exact before

/-! ### READ RECORD, READ HISTORY and CLEAR HISTORY -/

/-- An answer that is always sent queues a REPLY for each of its data. -/
theorem answer_always (h : CmdHead) (n : Nat) (d : List (List Byte)) (s : State) :
    answer h n { result := .done, state := s, data := d, always := true } = queueReplies h n .done d s :=
  if_pos (by simp [replies])

theorem splitFields_one {k n : Nat} (fits : n < 256 ^ k) : splitFields [k] (beBytes k n) = some [n] := by
  rw [splitFields_last, Nat.mod_eq_of_lt fits]

theorem exec_readHistory {h : CmdHead} {i : Nat} {s : State} (fits : i < 16) (ready : s.life = .ready) :
    exec (.readHistory h (beBytes 1 i)) s =
      .next (queueReplies h 27 .done (historyData s.records.history i) s) := by
  have range : readHistoryCommand.range [i] s = none := if_neg (by simp [arg]; omega)
  refine congrArg Host.Outcome.next ((takeCommand_ready (cmd := readHistoryCommand) (h := h) ready
    (splitFields_one (by omega)) rfl rfl range).trans ?_)
  exact answer_always h 27 _ s

/-! ### SET RING -/

/-- Settles O42: the sheets by the answers of the commands, SET RING by an event that ends in STANDBY outside a build. -/
theorem recordCommandsAnswer : Obligations.RecordCommandsAnswer := by
  refine ⟨fun h s ready => ?_, fun h i r s fits ready there => ?_, fun h i s fits ready empty => ?_,
    fun h s service ready => ?_, fun h n s service fits ready building => ?_, fun h n s service fits ready ringOpen => ?_⟩
  · exact congrArg Host.Outcome.next ((takeCommand_ready (cmd := readRecordCommand) (h := h) ready rfl rfl rfl rfl).trans
      (answer_always h 26 _ s))
  · rw [exec_readHistory fits ready, historyData, there]
    rfl
  · rw [exec_readHistory fits ready, historyData, List.getElem?_eq_none (by simpa using empty)]
    rfl
  · have permitted : clearHistoryCommand.permitted h.source [] = true := by rw [service]; rfl
    exact congrArg Host.Outcome.next ((takeCommand_ready (cmd := clearHistoryCommand) (h := h) ready rfl permitted rfl
      rfl).trans (answer_done h 28 _))
  · have permitted : setRingCommand.permitted h.source [n] = true := by rw [service]; rfl
    have busy : setRingCommand.owner [n] s = refuse .busy s := if_neg building
    refine congrArg Host.Outcome.next ((takeCommand_ready (cmd := setRingCommand) (h := h) ready (splitFields_one fits)
      permitted rfl rfl).trans ?_)
    rw [busy]
    exact answer_refuse h 29 (by simp) s
  · have permitted : setRingCommand.permitted h.source [n] = true := by rw [service]; rfl
    have opens : setRingCommand.owner [n] s = done (settle false (setRing n s)) := if_pos ringOpen
    have run : exec (.setRing h (beBytes 2 n)) s = .next (answer h 29 (done (settle false (setRing n s)))) := by
      refine congrArg Host.Outcome.next ((takeCommand_ready (cmd := setRingCommand) (h := h) ready (splitFields_one fits)
        permitted rfl rfl).trans ?_)
      rw [opens]
      rfl
    have waits : (setRing n s).erector.seq ≠ .awaitingPress := nofun
    have free := free_of_seq (lim := false) waits
    obtain ⟨erector, plan⟩ := settle_standby (lim := false) (e := setRing n s) rfl nofun
    have ring := ring_settle false waits
    obtain ⟨q, shape⟩ := answer_shape h 29 (done (settle false (setRing n s)))
    refine ⟨_, run, (base_answer _ _ _).trans (base_settle _ _), ?_⟩
    have answered := answered_done_settle h 29 (s := s) (e := setRing n s) (queueKept_same rfl)
    rw [← and_assoc, ← and_assoc, ← and_assoc, ← and_assoc, ← and_assoc, ← and_assoc]
    refine ⟨?_, answered⟩
    simp only [and_assoc]
    rw [shape]
    refine ⟨ring, ?_, ?_, ?_, ?_, ?_, ?_⟩
    · exact settle_currentRing free
    · exact settle_tail_none (running_of_ready ready) free rfl
    · exact congrArg Build.entries plan
    · exact congrArg Build.state plan
    · exact congrArg Erector.seq erector
    · exact congrArg Erector.feederMismatch erector

end Sys2Proof.Machine
end

section
/-! PROOF. The feeder queue and the seated input (04 R66, R67, R71). -/

namespace Sys2Proof.Machine

open Sys2Proof

/-- The station after DISCARD PIECE has taken the head, before the event ends. -/
def headDiscarded (s : State) : State :=
  { removeHead s with erector := { (removeHead s).erector with feederMismatch := false } }

/-- The station with its seated input at a level. -/
def withSeated (level : Bool) (s : State) : State := { s with inputs := { s.inputs with seated := level } }

theorem exec_discardPiece {h : CmdHead} {s : State} (ready : s.life = .ready) (role : s.cfg.roles.erector = true) :
    exec (.discardPiece h []) s = .next (answer h 11 (discardPieceCommand.owner [] s)) :=
  congrArg Host.Outcome.next (takeCommand_ready (cmd := discardPieceCommand) (h := h) ready rfl rfl role rfl)

theorem discardPiece_empty {s : State} (free : s.erector.seq ≠ .placing) (empty : s.erector.queue = []) :
    discardPieceCommand.owner [] s =
      { result := .done, state := s, data := [[byteOf 7, byteOf 255]], always := true } := by
  refine (if_neg free).trans ?_
  rw [empty]
  rfl

theorem discardPiece_head {p : Piece} {ps : List Piece} {s : State} (free : s.erector.seq ≠ .placing)
    (queue : s.erector.queue = p :: ps) :
    discardPieceCommand.owner [] s =
      { result := .done, state := settle false (headDiscarded s), data := [pieceData (some p)], always := true } := by
  refine (if_neg free).trans ?_
  rw [queue]
  rfl

/-- A notice of class 0 or 1 stays in a queue that is kept. -/
theorem QueueKept.mem {q : List QueueItem} {t : State} (kept : QueueKept q t) {x : QueueItem} (there : x ∈ q)
    (urgent : noticeClass x.notice ≠ 2) : x ∈ t.bus.queue :=
  kept.1.subset (List.mem_filter.2 ⟨there, by simpa using urgent⟩)

/-- With room in the queue a STEP that is issued stands there as the event ends. -/
theorem step_sent {a : StepAction} {w : Working} {s : State} (lim : Bool) (room : s.bus.queue.length < 6) :
    ∃ x ∈ (settle lim (issueStep a w s)).bus.queue, x.notice = .step a w.ring w.index := by
  have queued : ∃ x ∈ (enqueue (.step a w.ring w.index) s).bus.queue, x.notice = .step a w.ring w.index := by
    refine ⟨{ notice := .step a w.ring w.index, offering := false }, ?_, rfl⟩
    change _ ∈ queueAfter _ s.bus.queue
    unfold queueAfter
    rw [if_pos room]
    exact mem_insertNotice.2 (.inl rfl)
  obtain ⟨x, there, notice⟩ := queued
  have kept := ((evalKeeps_takeStep a w.ring w.index _).queue).trans (evalKeeps_settle lim (issueStep a w s)).queue
  exact ⟨x, kept.mem there (by rw [notice]; simp [noticeClass]), notice⟩

theorem seatPiece_placing {w : Working} {s : State} (placing : s.erector.seq = .placing)
    (working : s.erector.working = some w) :
    seatPiece s = issueStep .placed w (setSeq .awaitingPress (removeHead s)) := by
  unfold seatPiece
  rw [placing, working]

theorem seatPiece_idle {s : State} (free : s.erector.seq ≠ .placing) : seatPiece s = s := by
  unfold seatPiece
  split
  · next placing _ => exact absurd placing free
  · rfl

theorem FrameOf.refl (e : State) : FrameOf e e :=
  ⟨rfl, fun _ => rfl, fun _ => ⟨rfl, rfl, fun _ => ⟨rfl, fun _ => ⟨rfl, fun _ => rfl⟩⟩⟩⟩

/-- Settles O27: the base by the feeder's own rules, which no end of an event changes, and the STEP by the queue it keeps. -/
theorem feederQueueAndSeating : Obligations.FeederQueueAndSeating := by
  refine ⟨fun h s ready role placing => ?_, fun h s ready role free empty => ?_,
    fun h p ps s ready role free queue fits => ?_, fun piece key s running role room => ?_,
    fun piece key s running role full => ?_, fun piece key s idle => ?_, fun w s running role low placing working => ?_,
    fun level s free => ?_⟩
  · have busy : discardPieceCommand.owner [] s = refuse .busy s := if_pos placing
    rw [exec_discardPiece ready role, busy, answer_refuse h 11 (by simp)]
  · refine ⟨_, exec_discardPiece ready role, ?_⟩
    rw [discardPiece_empty free empty]
    obtain ⟨q, shape⟩ := answer_shape h 11
      { result := .done, state := s, data := [[byteOf 7, byteOf 255]], always := true }
    refine ⟨?_, sent_always h 11 _ s⟩
    rw [shape]
  · refine ⟨_, exec_discardPiece ready role, ?_⟩
    rw [discardPiece_head free queue]
    have base : baseOf (answer h 11 { result := .done, state := settle false (headDiscarded s)
                                      data := [pieceData (some p)], always := true }) =
        { baseOf s with feeder := ps, overfull := s.erector.feederOverfull && !ps.isEmpty } := by
      refine ((base_answer _ _ _).trans (base_settle _ _)).trans ?_
      unfold headDiscarded removeHead baseOf
      rw [queue]
      rfl
    refine ⟨congrArg Base.feeder base, base, ?_⟩
    have data : pieceData (some p) = [byteOf (128 + (if p.key then 64 else 0) + p.piece), byteOf p.arrival] := by
      have key : bit p.key * 64 = if p.key then 64 else 0 := by cases p.key <;> rfl
      rw [← key]
      rfl
    rw [← data]
    exact sent_always h 11 _ _
  · refine ⟨_, congrArg Host.Outcome.next (if_pos (by simp [running, role])), (base_settle _ _).trans ?_⟩
    unfold takePiece
    rw [if_pos room]
    rfl
  · refine ⟨_, congrArg Host.Outcome.next (if_pos (by simp [running, role])), (base_settle _ _).trans ?_⟩
    unfold takePiece
    rw [if_neg (by omega)]
    rfl
  · refine congrArg Host.Outcome.next (if_neg ?_)
    rcases idle with idle | absent
    · simp [idle]
    · simp [absent]
  · have seats : seatedInput true s =
        settle false (issueStep .placed w (setSeq .awaitingPress (removeHead (withSeated true s)))) := by
      unfold seatedInput
      dsimp only
      rw [if_pos (by simp [running, role, low])]
      exact congrArg (settle false) (seatPiece_placing placing working)
    refine ⟨_, congrArg Host.Outcome.next seats, ((base_settle _ _).trans (base_issueStep _ _ _)).trans rfl, fun room => ?_⟩
    exact step_sent false room
  · by_cases rises : (s.running && s.cfg.roles.erector && level && !s.inputs.seated) = true
    · have waits : s.erector.seq ≠ .placing := by
        simp only [Bool.and_eq_true, Bool.not_eq_true'] at rises
        obtain ⟨⟨_, up⟩, low⟩ := rises
        rcases free with down | high | waits
        · simp [up] at down
        · simp [low] at high
        · exact waits
      have settles : seatedInput level s = settle false (withSeated level s) := by
        refine (if_pos rises).trans (congrArg (settle false) (seatPiece_idle waits))
      exact ⟨_, congrArg Host.Outcome.next settles, settle_frame false (withSeated level s)⟩
    · exact ⟨_, congrArg Host.Outcome.next (if_neg rises), FrameOf.refl _⟩

end Sys2Proof.Machine
end

section
/-! PROOF. SET MARGIN and the margin watch in its event (03 R52 to R55). -/

namespace Sys2Proof.Machine

open Sys2Proof

/-! ### The margin watch of a CLAIMED entry -/

theorem evalKeeps_marginWatch (s : State) : EvalKeeps s (marginWatch s) := by
  unfold marginWatch
  split
  · split
    · exact .same rfl rfl
    · split
      · exact evalKeeps_abortWithdrawal s
      · exact .same rfl rfl
      · exact .same rfl rfl
  · exact .refl s

/-- At a CLAIMED entry the watch of a withdrawn group raises MARGIN LOW at a breach and lowers it otherwise (03 R53). -/
theorem marginWatch_claimed {s : State} (out : withdrawn s = true) (build : s.build.state ≠ .ringOpen)
    (claimed : currentEntryState s = some .claimed) :
    (marginWatch s).build = { s.build with marginLow := !marginMet s } ∧ (marginWatch s).thrust = s.thrust := by
  unfold marginWatch
  rw [if_pos (by simp [out, build])]
  split
  · next met => rw [met]; exact ⟨rfl, rfl⟩
  · next breached =>
    rw [claimed, Bool.eq_false_iff.2 breached]
    exact ⟨rfl, rfl⟩

/-- A group out of HOLD takes no retraction decision (03 R52). -/
theorem decideRetract_out {s : State} (out : s.thrust.mode ≠ .hold) : decideRetract s = s :=
  if_neg (by simp [out])

/-- A group that neither holds nor advances keeps the build unit through an evaluation of the units. -/
theorem unitsEval_build_out {lim : Bool} {s : State} (hold : s.thrust.mode ≠ .hold) (advance : s.thrust.mode ≠ .advance) :
    (unitsEval lim s).build = s.build := by
  have train : ∀ u : State, (trainEval u).build = u.build := by
    intro u
    unfold trainEval setPace
    dsimp only
    repeat' split
    all_goals rfl
  have screw : ∀ u : State, (screwEval u).build = u.build := by
    intro u
    unfold screwEval
    split
    · obtain ⟨x, shape⟩ := setScrew_eq (screwChoice (pressureBlindEval u)) (pressureBlindEval u)
      dsimp only
      rw [shape]
      change (pressureBlindEval u).build = _
      unfold pressureBlindEval
      dsimp only
      split <;> rfl
    · rfl
  have paced : (trainEval (screwEval (driveEval s))).build = s.build := by rw [train, screw, driveEval_build]
  have still : ∀ u : State, u.thrust.mode = s.thrust.mode → advanceEval u = u := by
    intro u same
    unfold advanceEval
    rw [same]
    split
    · next is => exact absurd is hold
    · next is => exact absurd is advance
    · rfl
  unfold unitsEval
  dsimp only
  rw [still]
  · cases lim <;> exact paced
  · cases lim <;> simp

/-- At a station without ERECTOR a withdrawn group in a build keeps mode and build unit as an event ends. -/
theorem settle_withdrawn {lim : Bool} {e : State} (running : e.running = true) (absent : e.cfg.roles.erector = false)
    (build : e.build.state ≠ .ringOpen) (out : withdrawn e = true) :
    (settle lim e).thrust.mode = e.thrust.mode ∧ (settle lim e).build = e.build := by
  have hold : e.thrust.mode ≠ .hold := fun is => by simp [withdrawn, is] at out
  have advance : e.thrust.mode ≠ .advance := fun is => by simp [withdrawn, is] at out
  refine ⟨settle_mode_in_build running lim absent build advance, ?_⟩
  have mode := unitsEval_mode_in_build lim build advance
  have first := unitsEval_build_out (lim := lim) hold advance
  have second := unitsEval_build_out (lim := lim) (s := unitsEval lim e) (by rw [mode]; exact hold)
    (by rw [mode]; exact advance)
  rw [settle_shape running]
  change (unitsEval lim (erectorEval (unitsEval lim e))).build = _
  rw [erectorEval_absent (by rw [roles_unitsEval]; exact absent), second, first]

/-! ### SET MARGIN -/

/-- The station with the factor of a SET MARGIN, before its watches (03 R55). -/
def withMargin (m : Nat) (s : State) : State := { s with build := { s.build with margin := m } }

/-- The station after the watches of a SET MARGIN. -/
def marginTaken (m : Nat) (s : State) : State := decideRetract (marginWatch (withMargin m s))

theorem exec_setMargin {h : CmdHead} {m : Nat} {s : State} (fits : m < 65536) (ready : s.life = .ready) :
    exec (.setMargin h (beBytes 2 m)) s =
      .next (answer h 5
        { result := clampedOr .done [(m, max 1000 (min m 2500))]
          state := settle false (marginTaken (max 1000 (min m 2500)) s) }) := by
  rw [← setpointResult_eq (by simp)]
  exact congrArg Host.Outcome.next
    (takeCommand_ready (cmd := setMarginCommand) (h := h) ready (splitFields_one fits) rfl rfl rfl)

theorem base_marginTaken (m : Nat) (s : State) : baseOf (marginTaken m s) = baseOf (withMargin m s) :=
  (base_decideRetract _).trans (base_marginWatch _)

/-- Settles O23: the factor by the base, the watches by the margin watch of a PENDING and of a CLAIMED entry. -/
theorem marginSetAndWatched : Obligations.MarginSetAndWatched := by
  intro h m s fits ready
  have running : s.running = true := running_of_ready ready
  have kept : QueueKept s.bus.queue (settle false (marginTaken (max 1000 (min m 2500)) s)) :=
    (((evalKeeps_marginWatch (withMargin (max 1000 (min m 2500)) s)).trans (evalKeeps_decideRetract _)).trans
      (evalKeeps_settle false _)).queue
  refine ⟨_, exec_setMargin fits ready, ?_, fun waits => ?_, answered_answer h 5 _ kept,
    fun absent out build pending breached => ?_, fun absent out build claimed => ?_⟩
  · exact ((base_answer _ _ _).trans (base_settle _ _)).trans (base_marginTaken _ s)
  · rw [ring_answer]
    have seq : (marginTaken (max 1000 (min m 2500)) s).erector = s.erector :=
      (erector_decideRetract _).trans (erector_marginWatch _)
    refine (ring_settle false (by rw [seq]; exact waits)).trans ?_
    exact (ring_decideRetract _).trans (ring_marginWatch _)
  · have taken : marginTaken (max 1000 (min m 2500)) s = abortWithdrawal (withMargin (max 1000 (min m 2500)) s) := by
      unfold marginTaken
      rw [marginWatch_breached (s := withMargin (max 1000 (min m 2500)) s) out build pending breached,
        decideRetract_waiting (c := 0) rfl]
    rw [taken, answer_thrust, answer_build]
    dsimp only
    have base := base_abortWithdrawal (withMargin (max 1000 (min m 2500)) s)
    have alive : (abortWithdrawal (withMargin (max 1000 (min m 2500)) s)).running = true :=
      (running_of_base base).trans running
    have there : (abortWithdrawal (withMargin (max 1000 (min m 2500)) s)).cfg.roles.erector = false := by
      rw [cfg_of_base base]; exact absent
    have mode := abortWithdrawal_mode (s := withMargin (max 1000 (min m 2500)) s) out
    have state := abortWithdrawal_state (withMargin (max 1000 (min m 2500)) s)
    have plan := ((settle_frame false (abortWithdrawal (withMargin (max 1000 (min m 2500)) s))).2.2 there).1
    refine ⟨?_, congrArg Build.retry plan⟩
    rw [settle_mode_in_build alive false there (by rw [state]; exact build), mode]
    · rfl
    · rw [mode]
      split <;> simp
  · obtain ⟨watched, thrust⟩ := marginWatch_claimed (s := withMargin (max 1000 (min m 2500)) s) out build claimed
    have taken : marginTaken (max 1000 (min m 2500)) s = marginWatch (withMargin (max 1000 (min m 2500)) s) := by
      refine decideRetract_out ?_
      rw [thrust]
      exact fun is => by simp [withdrawn, withMargin] at out is; simp [is] at out
    have base := base_marginWatch (withMargin (max 1000 (min m 2500)) s)
    obtain ⟨mode, unit_⟩ := settle_withdrawn (lim := false) (e := marginWatch (withMargin (max 1000 (min m 2500)) s))
      ((running_of_base base).trans running) (by rw [cfg_of_base base]; exact absent)
      (by rw [watched]; exact build) (by unfold withdrawn; rw [thrust]; exact out)
    rw [taken, answer_thrust, answer_build]
    dsimp only
    rw [mode, unit_, thrust, watched]
    exact ⟨rfl, rfl⟩

end Sys2Proof.Machine
end

section
/-! PROOF. LOAD PLAN: the entries its bytes spell, its checks in order and its effect (03 R41 to R43). -/

namespace Sys2Proof.Machine

open Sys2Proof

/-! ### The entries that the bytes spell -/

theorem bitOf_toNat (b : Byte) (i : Nat) : bitOf b.toNat i = b.getLsbD i := by
  unfold bitOf
  rw [BitVec.getLsbD, Nat.testBit_eq_decide_div_mod_eq]

theorem planEntry_toNat (b : Byte × Byte) : planEntry b.1.toNat b.2.toNat = readEntry b := by
  have cover : coverSectors b.2.toNat = sectorsOf b.2 := by
    unfold coverSectors sectorsOf
    congr 1
    funext i
    exact bitOf_toNat b.2 i
  unfold planEntry readEntry
  rw [bitOf_toNat, bitOf_toNat, cover]

theorem planEntries_entryFields (es : List (Byte × Byte)) : planEntries (entryFields es) = es.map readEntry := by
  induction es with
  | nil => rfl
  | cons b es ih =>
    change planEntry b.1.toNat b.2.toNat :: planEntries (entryFields es) = _
    rw [planEntry_toNat, ih, List.map_cons]

/-- An entry that LOAD PLAN spells is EMPTY exactly as a placeholder. -/
theorem readEntry_empty (b : Byte × Byte) : (readEntry b).state = .empty ↔ b.1.getLsbD 7 = true := by
  unfold readEntry
  split
  · next placeholder => simp [placeholder]
  · next other => exact iff_of_false (by simp) other

theorem entryRefused_readEntry (n : Nat) (last : Bool) (b : Byte × Byte) :
    entryRefused n last (readEntry b) = badEntry n last b := by
  unfold entryRefused badEntry readEntry
  split
  · next placeholder => simp
  · next other =>
    simp only [reduceCtorEq, if_false]
    cases b.1.getLsbD 6 <;> cases last <;> simp

theorem badAt_zero (n : Nat) (b : Byte × Byte) (es : List (Byte × Byte)) :
    badAt n (b :: es) 0 = badEntry n es.isEmpty b := by
  have last : decide (0 + 1 = (b :: es).length) = es.isEmpty := by cases es <;> simp
  unfold badAt
  rw [List.getElem?_cons_zero, ← last]

theorem badAt_succ (n : Nat) (b : Byte × Byte) (es : List (Byte × Byte)) (j : Nat) :
    badAt n (b :: es) (j + 1) = badAt n es j := by
  have last : decide (j + 1 + 1 = (b :: es).length) = decide (j + 1 = es.length) := by simp
  unfold badAt
  rw [List.getElem?_cons_succ, last]

/-- Check 2 of LOAD PLAN names the first refused entry (03 R41). -/
theorem firstRefused_first {n : Nat} {es : List (Byte × Byte)} (i j : Nat) (there : j < es.length)
    (bad : badAt n es j = true) (before : ∀ k < j, badAt n es k = false) :
    firstRefused n i (es.map readEntry) = some (i + j) := by
  induction es generalizing i j with
  | nil => cases there
  | cons b es ih =>
    rw [List.map_cons, firstRefused, List.isEmpty_map, entryRefused_readEntry, ← badAt_zero]
    cases j with
    | zero => rw [if_pos bad]; rfl
    | succ j =>
      rw [before 0 (Nat.succ_pos j), if_neg Bool.false_ne_true,
        ih (i + 1) j (by simpa using there) (by rw [← badAt_succ n b]; exact bad)
          (fun k less => by rw [← badAt_succ n b]; exact before (k + 1) (by omega))]
      congr 1
      omega

theorem firstRefused_good {n : Nat} {es : List (Byte × Byte)} (i : Nat) (good : ∀ k < es.length, badAt n es k = false) :
    firstRefused n i (es.map readEntry) = none := by
  induction es generalizing i with
  | nil => rfl
  | cons b es ih =>
    rw [List.map_cons, firstRefused, List.isEmpty_map, entryRefused_readEntry, ← badAt_zero,
      good 0 (by simp), if_neg Bool.false_ne_true]
    exact ih (i + 1) fun k less => by rw [← badAt_succ n b]; exact good (k + 1) (by simpa using less)

/-- The figures of an entry that a SET entry keeps (03 R43). -/
def entryFigures (e : PlanEntry) : Nat × Bool × List Nat := (e.piece, e.key, e.cover)

/-- Check 3 of LOAD PLAN in SUSPENDED: the held entries do not differ from the given ones (03 R43). -/
theorem sameEntries_take_iff (held given : List PlanEntry) (few : held.length ≤ given.length) :
    sameEntries held given = true ↔
      (∀ e ∈ given.take held.length, e.state ≠ .empty)
        ∧ held.map entryFigures = (given.take held.length).map entryFigures := by
  induction held generalizing given with
  | nil => simp [sameEntries]
  | cons h hs ih =>
    cases given with
    | nil => simp at few
    | cons g gs =>
      have same : sameEntry h g = true ↔ g.state ≠ .empty ∧ entryFigures h = entryFigures g := by
        simp [sameEntry, entryFigures, Prod.ext_iff, and_assoc]
      rw [sameEntries, Bool.and_eq_true, same, ih gs (by simpa using few)]
      simp only [List.length_cons, List.take_succ_cons, List.mem_cons, forall_eq_or_imp, List.map_cons, List.cons.injEq]
      tauto

/-! ### The checks -/

section
variable {h : CmdHead} {ring : Nat} {es : List (Byte × Byte)} {s : State}

theorem planRange_fields : planRange (ring :: es.length :: entryFields es) s =
    if es.length < 1 ∨ 8 < es.length then some 1
    else (firstRefused s.cfg.n 0 (es.map readEntry)).map (fun i => 2 + i) := by
  unfold planRange
  rw [show (ring :: es.length :: entryFields es).drop 2 = entryFields es from rfl, planEntries_entryFields]
  exact if_congr (by simp [arg]) rfl rfl

/-- A plan of good entries reaches the build unit (03 R41). -/
theorem exec_loadPlan (ready : s.life = .ready) (small : ring < 65536) (some_ : 1 ≤ es.length) (few : es.length ≤ 8)
    (good : (List.range es.length).all (fun j => !badAt s.cfg.n es j) = true) :
    exec (.loadPlan h (planOperands ring es)) s =
      .next (answer h 6 (loadPlanCommand.owner (ring :: es.length :: entryFields es) s)) := by
  have fine : ∀ k < es.length, badAt s.cfg.n es k = false := by simpa using good
  have range : planRange (ring :: es.length :: entryFields es) s = none := by
    rw [planRange_fields, if_neg (by omega), firstRefused_good 0 fine]
    rfl
  exact congrArg Host.Outcome.next (takeCommand_ready (cmd := loadPlanCommand) (h := h) ready
    (splitFields_planOperands small (by omega)) rfl rfl range)

theorem loadPlan_building (building : s.build.state = .building) :
    loadPlanCommand.owner (ring :: es.length :: entryFields es) s = refuse .busy s := by
  simp only [loadPlanCommand, building]

theorem loadPlan_otherRing (free : s.build.state ≠ .building) (other : ring ≠ s.records.ring) :
    loadPlanCommand.owner (ring :: es.length :: entryFields es) s = refuse .planMismatch s := by
  have first : arg (ring :: es.length :: entryFields es) 0 = ring := rfl
  simp only [loadPlanCommand, first]
  split
  · next building => exact absurd building free
  · exact if_pos other
  · exact if_pos other

theorem loadPlan_open (ringOpen : s.build.state = .ringOpen) :
    loadPlanCommand.owner (s.records.ring :: es.length :: entryFields es) s =
      done (settle false (loadOpen s.records.ring (es.map readEntry) s)) := by
  rw [← planEntries_entryFields]
  simp only [loadPlanCommand, ringOpen]
  exact if_neg (fun other => other rfl)

theorem loadPlan_suspended (suspended : s.build.state = .suspended) :
    loadPlanCommand.owner (s.records.ring :: es.length :: entryFields es) s = loadSuspended (es.map readEntry) s := by
  rw [← planEntries_entryFields]
  simp only [loadPlanCommand, suspended]
  exact if_neg (fun other => other rfl)

end

/-! ### The effect -/

theorem ring_settle_absent {lim : Bool} {e : State} (absent : e.cfg.roles.erector = false) :
    ringOf (settle lim e) = ringOf e := by
  unfold settle
  split
  · simp only [ring_setOutputs, ring_syncRecord, ring_injectionEval, ring_unitsEval]
    rw [erectorEval_absent (by rw [roles_unitsEval]; exact absent), ring_unitsEval]
  · rfl

/-- Outside BUILDING an erector unit that is absent or in STANDBY leaves plan and figures of the ring. -/
theorem settle_plan_still {lim : Bool} {e : State} (still : e.cfg.roles.erector = false ∨ e.erector.seq = .standby)
    (idle : e.build.state ≠ .building) : planOf (settle lim e) = planOf e ∧ ringOf (settle lim e) = ringOf e := by
  rcases still with absent | standby
  · exact ⟨((settle_frame lim e).2.2 absent).1, ring_settle_absent absent⟩
  · exact ⟨(settle_standby standby idle).2, ring_settle lim (by rw [standby]; exact nofun)⟩

/-- The station with the plan of a LOAD PLAN in SUSPENDED, before the event ends (03 R43). -/
def planReplaced (es : List PlanEntry) (s : State) : State :=
  lowerMismatches
    { s with build := { s.build with entries := s.build.entries.take s.build.index ++ es.drop s.build.index } }

theorem loadSuspended_eq {es : List PlanEntry} {s : State} (claimed : currentEntryState s ≠ some .claimed)
    (placed : currentEntryState s ≠ some .placed) :
    loadSuspended es s =
      if es.length ≤ s.build.index ∨ sameEntries (s.build.entries.take s.build.index) es = false then
        refuse .planMismatch s
      else done (settle false (planReplaced es s)) := by
  unfold loadSuspended
  rw [if_neg (by simp [claimed, placed])]
  split
  · next few => rw [if_pos (.inl few)]
  · next enough =>
    split
    · next differs => rw [if_pos (.inr (by simpa using differs))]
    · next same => rw [if_neg (by simpa [enough] using same)]; rfl

/-- Settles O20: the refusals by the checks in their order, the effect by an event that ends with the plan as it stands. -/
theorem loadPlanChecksAndEffect : Obligations.LoadPlanChecksAndEffect := by
  refine ⟨fun h ring es s ready ringOpen small own many few good => ?_,
    fun h ring j es s ready small few there bad good => ?_,
    fun h ring es s ready small many few good building => ?_, fun h ring es s ready small many few good free other => ?_,
    fun h es s ready small many few good suspended worked => ?_,
    fun h es s ready small many few good suspended claimed placed bound differs => ?_,
    fun h es s ready small few good suspended claimed placed above real same still => ?_⟩
  · subst own
    have run := exec_loadPlan (h := h) ready small many few good
    rw [loadPlan_open ringOpen] at run
    have plan := settle_plan_ringOpen (lim := false) (s := loadOpen s.records.ring (es.map readEntry) s) ringOpen
    refine ⟨_, run, ?_, (base_answer _ _ _).trans (base_settle _ _), fun waits => ?_,
      answered_done_settle h 6 (queueKept_same rfl)⟩
    · unfold planOf at plan ⊢
      rw [answer_build]
      exact plan
    · rw [ring_answer]
      exact ring_settle false waits
  · have before : ∀ k < j, badAt s.cfg.n es k = false := by simpa using good
    have range : planRange (ring :: es.length :: entryFields es) s = some (2 + j) := by
      rw [planRange_fields, if_neg (by omega), firstRefused_first 0 j there bad before]
      simp
    exact congrArg Host.Outcome.next (takeCommand_outOfRange (cmd := loadPlanCommand) ready
      (splitFields_planOperands small (by omega)) rfl rfl range)
  · rw [exec_loadPlan ready small many few good, loadPlan_building building, answer_refuse h 6 (by simp)]
  · rw [exec_loadPlan ready small many few good, loadPlan_otherRing free other, answer_refuse h 6 (by simp)]
  · have busy : loadSuspended (es.map readEntry) s = refuse .busy s := if_pos (by simpa using worked)
    rw [exec_loadPlan ready small many few good, loadPlan_suspended suspended, busy, answer_refuse h 6 (by simp)]
  · have refused : loadSuspended (es.map readEntry) s = refuse .planMismatch s := by
      rw [loadSuspended_eq claimed placed, if_pos]
      by_cases short : es.length ≤ s.build.index
      · exact .inl (by simpa using short)
      · refine .inr (Bool.eq_false_iff.2 fun agree => ?_)
        have length : (s.build.entries.take s.build.index).length = s.build.index := by simpa using bound
        have figures := ((sameEntries_take_iff _ _ (by simp; omega)).1 agree).2
        rw [length] at figures
        exact (differs.resolve_left short) figures
    rw [exec_loadPlan ready small many few good, loadPlan_suspended suspended, refused, answer_refuse h 6 (by simp)]
  · have length : (s.build.entries.take s.build.index).length = s.build.index := by
      have lengths := congrArg List.length same
      simp only [List.length_map, List.length_take] at lengths ⊢
      omega
    have agree : sameEntries (s.build.entries.take s.build.index) (es.map readEntry) = true := by
      refine (sameEntries_take_iff _ _ (by simp; omega)).2 ⟨?_, ?_⟩
      · rw [length, ← List.map_take]
        intro e there
        obtain ⟨b, entry, rfl⟩ := List.mem_map.1 there
        have bit := List.all_eq_true.1 real b entry
        rw [ne_eq, readEntry_empty]
        simpa using bit
      · rw [length]
        exact same
    have taken : loadSuspended (es.map readEntry) s = done (settle false (planReplaced (es.map readEntry) s)) := by
      rw [loadSuspended_eq claimed placed, if_neg]
      simp [agree, above]
    have run := exec_loadPlan (h := h) ready small (by omega) few good
    rw [loadPlan_suspended suspended, taken] at run
    have idle : (planReplaced (es.map readEntry) s).build.state ≠ .building := by
      change s.build.state ≠ _
      rw [suspended]
      exact nofun
    obtain ⟨plan, ring⟩ := settle_plan_still (lim := false) (e := planReplaced (es.map readEntry) s) still idle
    have base : baseOf (planReplaced (es.map readEntry) s) = baseOf s := rfl
    have figures : ringOf (planReplaced (es.map readEntry) s) = ringOf s := rfl
    have queue : QueueKept s.bus.queue (planReplaced (es.map readEntry) s) := queueKept_same rfl
    have effect : planOf (planReplaced (es.map readEntry) s) =
        { planOf s with
          entries := s.build.entries.take s.build.index ++ (es.map readEntry).drop s.build.index
          planMismatch := false } := rfl
    generalize planReplaced (es.map readEntry) s = e at *
    rw [effect] at plan
    refine ⟨_, run, ?_, ?_, ?_, answered_done_settle h 6 queue⟩
    · unfold planOf at plan ⊢
      rw [answer_build]
      exact plan
    · rw [base_answer]
      exact (base_settle false e).trans base
    · rw [ring_answer]
      exact ring.trans figures

end Sys2Proof.Machine
end

section
/-! PROOF. Reading the configuration: CONFIG FAULT, or LISTENING with the judged values (12 R165 to R167). -/

namespace Sys2Proof.Machine

open Sys2Proof

/-! ### The memory as read -/

theorem readMemory_answered (m : List Byte) : readMemory m.length (m.map some) = m.map BitVec.toNat := by
  induction m with
  | nil => rfl
  | cons b m ih => simp [readMemory, ih]

/-- A byte that is not answered reads as all ones (12 R166). -/
theorem readMemory_ones (k : Nat) (bytes : List (Option Byte)) :
    readMemory k (bytes.map (fun b => some (b.getD 255))) = readMemory k bytes := by
  induction k generalizing bytes with
  | zero => rfl
  | succ k ih =>
    cases bytes with
    | nil => rfl
    | cons b bytes =>
      have ones : ((some (b.getD 255)).map BitVec.toNat).getD 255 = (b.map BitVec.toNat).getD 255 := by
        cases b <;> rfl
      rw [List.map_cons, readMemory, readMemory, ones, ih]

section
variable {m : List Byte}

theorem memByte_map {i : Nat} (there : i < m.length) : memByte (m.map BitVec.toNat) i = (m.getD i 0).toNat := by
  simp [memByte, List.getD, there]

theorem memWord_map {i : Nat} (there : i + 1 < m.length) :
    memWord (m.map BitVec.toNat) i = beNat ((m.drop i).take 2) := by
  have two : (m.drop i).take 2 = [m[i], m[i + 1]] := by
    rw [List.drop_eq_getElem_cons (by omega), List.drop_eq_getElem_cons there]
    rfl
  rw [memWord, memByte_map (by omega), memByte_map there, two]
  simp [beNat, List.getD, there, (by omega : i < m.length)]

theorem checkByteGood_map (whole : m.length = 32) : checkByteGood (m.map BitVec.toNat) =
    decide ((m.getD 31 0).toNat = 255 - ((m.take 31).map BitVec.toNat).sum % 256) := by
  unfold checkByteGood
  rw [memByte_map (by omega), List.map_take]

theorem marker_map (whole : m.length = 32) : memByte (m.map BitVec.toNat) 0 = 58 ↔ m.getD 0 0 = 58 := by
  rw [memByte_map (by omega), BitVec.toNat_eq]
  rfl

end

/-! ### The values as judged -/

/-- The configured values in the order of 10 section 10.6. -/
def figuresOf (c : ConfigValues) : List Nat :=
  [c.n, c.af, c.aa, c.w, c.smax, c.rho, c.beltScale, c.addScale, c.vrev, c.nmax, c.vs, c.pumpMax, c.tn, c.k, c.tripForce,
    c.pressForce]

theorem config_eq_iff {c d : ConfigValues} (roles : c.roles = d.roles) : c = d ↔ figuresOf c = figuresOf d := by
  cases c
  cases d
  obtain rfl : _ = _ := roles
  simp [figuresOf]

/-- The values that a memory gives once they are judged (12 R167). -/
def configOf (m : List Byte) : ConfigValues := judgedConfig (rawConfig (m.map BitVec.toNat))

/-- CONFIG CLAMPED for a memory. -/
def clampedBy (m : List Byte) : Bool := configOf m ≠ rawConfig (m.map BitVec.toNat)

/-! ### The reading -/

section
variable {pins : BitVec 3} {m : List Byte} {s : State}

theorem exec_configurationRead (starting : s.life = .starting) (whole : m.length = 32) :
    exec (.configurationRead pins (m.map some)) s =
      .next (if checkByteGood (m.map BitVec.toNat) = false ∨ memByte (m.map BitVec.toNat) 0 ≠ 58 then
          { s with life := .configFault, own := pins.toNat }
        else if pins.toNat < (configOf m).n then enterListening pins.toNat (configOf m) (clampedBy m) s
        else { s with life := .configFault, own := pins.toNat, configClamped := clampedBy m }) := by
  have read : readMemory 32 (m.map some) = m.map BitVec.toNat := by rw [← whole, readMemory_answered]
  refine congrArg Host.Outcome.next ((if_pos starting).trans ?_)
  dsimp only
  rw [read]
  exact if_congr (by simp) rfl rfl

theorem configOf_n (whole : m.length = 32) : (configOf m).n = max 4 (min (m.getD 1 0).toNat 8) := by
  rw [← memByte_map (m := m) (i := 1) (by omega)]
  rfl

theorem configOf_roles (whole : m.length = 32) :
    (configOf m).roles.screw = (m.getD 2 0).getLsbD 7 ∧ (configOf m).roles.erector = (m.getD 2 0).getLsbD 6
      ∧ (configOf m).roles.drive = (m.getD 2 0).getLsbD 5 ∧ (configOf m).roles.line = (m.getD 2 0).getLsbD 4 := by
  simp only [← bitOf_toNat, ← memByte_map (m := m) (i := 2) (by omega)]
  exact ⟨rfl, rfl, rfl, rfl⟩

/-- The values as read, in the order of 10 section 10.6. -/
theorem figuresOf_rawConfig (whole : m.length = 32) :
    let word (i : Nat) : Nat := beNat ((m.drop i).take 2)
    let byte (i : Nat) : Nat := (m.getD i 0).toNat
    figuresOf (rawConfig (m.map BitVec.toNat)) =
      [byte 1, word 3, word 5, word 7, word 9, word 11, byte 13, byte 15, word 16, word 18, word 20, byte 22, byte 23,
        byte 24, word 25, word 27] := by
  unfold figuresOf rawConfig
  dsimp only
  repeat rw [memWord_map (by omega)]
  repeat rw [memByte_map (by omega)]

/-- Each value as judged, and CONFIG CLAMPED where one differs (12 R167). -/
theorem configOf_values {clamped : Bool} (is : clamped = clampedBy m) (whole : m.length = 32) :
    let word (i : Nat) : Nat := beNat ((m.drop i).take 2)
    let byte (i : Nat) : Nat := (m.getD i 0).toNat
    let c := configOf m
    c.af = max 100 (min (word 3) 9999) ∧ c.aa = max 10 (min (word 5) 2000)
      ∧ c.w = max 5000 (min (word 7) 25000) ∧ c.smax = max (c.w + 500) (min (word 9) 30000)
      ∧ c.rho = max 1000 (min (word 11) 3000) ∧ c.beltScale = max 1 (min (byte 13) 50)
      ∧ c.addScale = max 1 (min (byte 15) 50) ∧ c.vrev = max 10 (min (word 16) 2000)
      ∧ c.nmax = max 10 (min (word 18) 300) ∧ c.vs = max 100 (min (word 20) 10000)
      ∧ c.pumpMax = max 1 (min (byte 22) 120) ∧ c.tn = max 10 (min (byte 23) 100)
      ∧ c.k = max 2 (min (byte 24) 20) ∧ c.tripForce = max 1000 (min (word 25) 16000)
      ∧ c.pressForce = min (max 100 (min (word 27) 8000)) (c.tripForce - 1)
      ∧ clamped =
          decide
            (figuresOf c ≠
              [byte 1, word 3, word 5, word 7, word 9, word 11, byte 13, byte 15, word 16, word 18, word 20, byte 22,
                byte 23, byte 24, word 25, word 27]) := by
  have words : ∀ i, i + 1 < 32 → beNat ((m.drop i).take 2) = memWord (m.map BitVec.toNat) i :=
    fun i there => (memWord_map (by omega)).symm
  have bytes : ∀ i, i < 32 → (m.getD i 0).toNat = memByte (m.map BitVec.toNat) i :=
    fun i there => (memByte_map (by omega)).symm
  have read := figuresOf_rawConfig whole
  dsimp only at read ⊢
  rw [← read, is]
  rw [words 3 (by omega), words 5 (by omega), words 7 (by omega), words 9 (by omega), words 11 (by omega),
    words 16 (by omega), words 18 (by omega), words 20 (by omega), words 25 (by omega), words 27 (by omega),
    bytes 13 (by omega), bytes 15 (by omega), bytes 22 (by omega), bytes 23 (by omega), bytes 24 (by omega)]
  refine ⟨rfl, rfl, rfl, rfl, rfl, rfl, rfl, rfl, rfl, rfl, rfl, rfl, rfl, rfl, ?_, ?_⟩
  · have trip : (configOf m).tripForce = clamp 1000 16000 (memWord (m.map BitVec.toNat) 25) := rfl
    have press : (configOf m).pressForce =
        if (configOf m).tripForce ≤ clamp 100 8000 (memWord (m.map BitVec.toNat) 27) then (configOf m).tripForce - 1
        else clamp 100 8000 (memWord (m.map BitVec.toNat) 27) := rfl
    have least : 1000 ≤ (configOf m).tripForce := by rw [trip]; exact Nat.le_max_left _ _
    rw [press]
    unfold clamp
    split <;> omega
  · exact decide_eq_decide.2 (not_congr (config_eq_iff rfl))

end

/-! ### The first force reading -/

section
variable {v : Nat} {s : State}

theorem tripThrust_rests (s : State) : (tripThrust s).drive = s.drive ∧ (tripThrust s).grout = s.grout
    ∧ (s.build.state = .ringOpen → (tripThrust s).build.state = .ringOpen) := by
  have added : ∀ (l : List TripPair) (u : State), (setTrips l u).drive = u.drive ∧ (setTrips l u).grout = u.grout
      ∧ (u.build.state = .ringOpen → (setTrips l u).build.state = .ringOpen) := by
    intro l u
    unfold setTrips suspendBuild
    dsimp only
    repeat' split
    all_goals simp_all
  exact added _ (setMode .tripped s)

theorem takeForce_rests : (takeForce v s).drive = s.drive ∧ (takeForce v s).grout = s.grout := by
  rcases takeForce_cases v s with ⟨_, _, e⟩ | ⟨_, _, _, e⟩ | ⟨_, _, e⟩
  · rw [e]
    obtain ⟨drive, grout, _⟩ := tripThrust_rests (recordForce v s)
    exact ⟨drive, grout⟩
  · rw [e]
    exact ⟨by rw [decideRetract_drive]; rfl, by rw [decideRetract_grout]; rfl⟩
  · rw [e]
    exact ⟨rfl, rfl⟩

theorem takeForce_ringOpen (ringOpen : s.build.state = .ringOpen) :
    (takeForce v s).build.state = .ringOpen ∧ ringOf (takeForce v s) = ringOf (recordForce v s) := by
  rcases takeForce_cases v s with ⟨_, _, e⟩ | ⟨_, _, _, e⟩ | ⟨_, _, e⟩
  · rw [e]
    exact ⟨(tripThrust_rests (recordForce v s)).2.2 ringOpen, by
      unfold tripThrust
      rw [ring_enqueue, ring_addTrip]
      rfl⟩
  · have still : decideRetract (setMode .hold (recordForce v s)) = setMode .hold (recordForce v s) :=
      (decideRetract_cases _).resolve_right fun ⟨building, _⟩ => absurd (ringOpen.symm.trans building) (by simp)
    rw [e, still]
    exact ⟨ringOpen, rfl⟩
  · rw [e]
    exact ⟨ringOpen, rfl⟩

end

/-- In OPEN the end of an event leaves the figures of the ring. -/
theorem ring_settle_ringOpen {lim : Bool} {e : State} (ringOpen : e.build.state = .ringOpen) :
    ringOf (settle lim e) = ringOf e := by
  obtain ⟨x, b, shape⟩ := erectorEval_shape_ringOpen (s := unitsEval lim e) (by rw [unitsEval_build_state]; exact ringOpen)
  have worked : ringOf (erectorEval (unitsEval lim e)) = ringOf e := by
    rw [shape]
    exact ring_unitsEval lim e
  unfold settle
  split
  · rw [ring_setOutputs, ring_syncRecord, ring_injectionEval, ring_unitsEval, worked]
  · rfl

/-! ### What LISTENING begins with -/

section
variable {own : Nat} {c : ConfigValues} {clamped : Bool} {s : State}

/-- The station as it takes its first force reading in LISTENING. -/
def firstForce (own : Nat) (c : ConfigValues) (clamped : Bool) (s : State) : State :=
  takeForce s.inputs.force (listeningWith own c clamped s)

theorem enterListening_base :
    (enterListening own c clamped s).own = own ∧ (enterListening own c clamped s).cfg = c
      ∧ (enterListening own c clamped s).configClamped = clamped ∧ (enterListening own c clamped s).listen = 0
      ∧ (enterListening own c clamped s).probe = false
      ∧ (enterListening own c clamped s).clock =
          { now := s.clock.now, noticeDue := some (s.clock.now + c.tn), controlDue := some (s.clock.now + 1000)
            driveDue := some (s.clock.now + 100) } := by
  have settled := base_settle false (firstForce own c clamped s)
  rcases base_takeForce s.inputs.force (listeningWith own c clamped s) with same | tripped
  · have base := settled.trans same
    exact ⟨congrArg Base.own base, congrArg Base.cfg base, congrArg Base.configClamped base, congrArg Base.listen base,
      congrArg Base.probe base, congrArg Base.clock base⟩
  · have base := settled.trans tripped
    exact ⟨congrArg Base.own base, congrArg Base.cfg base, congrArg Base.configClamped base, congrArg Base.listen base,
      congrArg Base.probe base, congrArg Base.clock base⟩

theorem enterListening_rests : (enterListening own c clamped s).drive.state = (if c.roles.drive then .off else .absent)
    ∧ (enterListening own c clamped s).grout.line = (if c.roles.line then .closed else .absent) := by
  obtain ⟨drive, grout⟩ := takeForce_rests (v := s.inputs.force) (s := listeningWith own c clamped s)
  have still : (firstForce own c clamped s).drive.state = if c.roles.drive then .off else .absent :=
    congrArg Drive.state drive
  have rests : (firstForce own c clamped s).grout.line = if c.roles.line then .closed else .absent :=
    congrArg Grout.line grout
  constructor
  · have kept := settle_drive_rests (lim := false) (e := firstForce own c clamped s)
      (by rw [still]; split <;> exact ⟨nofun, nofun⟩)
    exact (congrArg Drive.state kept).trans still
  · have kept := settle_line_rests (lim := false) (e := firstForce own c clamped s) (by rw [rests]; split <;> rfl)
    exact kept.1.trans rests

/-- Outside a build ring number and history are kept, and the record opens with the force that stands at the input. -/
theorem enterListening_ring (ringOpen : s.build.state = .ringOpen) :
    (enterListening own c clamped s).records.ring = s.records.ring
      ∧ (enterListening own c clamped s).records.history = s.records.history
      ∧ (enterListening own c clamped s).records.current.peakForce = s.inputs.force := by
  obtain ⟨openRing, ring⟩ := takeForce_ringOpen (v := s.inputs.force) (s := listeningWith own c clamped s) ringOpen
  have figures := (ring_settle_ringOpen (lim := false) openRing).trans ring
  have peak : max (listeningWith own c clamped s).records.current.peakForce s.inputs.force = s.inputs.force :=
    Nat.zero_max _
  exact ⟨congrArg RingPart.ring figures, congrArg RingPart.history figures,
    (congrArg RingPart.peakForce figures).trans peak⟩

/-- A force above the trip force trips the group in the event that begins LISTENING (02 R29, log 16). -/
theorem enterListening_trips (hold : s.thrust.mode = .hold) (high : c.tripForce < s.inputs.force) :
    (enterListening own c clamped s).thrust.mode = .tripped
      ∧ (own, TripCause.thrust) ∈ (enterListening own c clamped s).view.trips
      ∧ (s.bus.queue = [] → ∃ x ∈ (enterListening own c clamped s).bus.queue, x.notice = .trip .thrust) := by
  have taken : firstForce own c clamped s = tripThrust (recordForce s.inputs.force (listeningWith own c clamped s)) := by
    unfold firstForce takeForce judgeForce
    rw [if_pos (by exact high), if_neg]
    change s.thrust.mode ≠ _
    rw [hold]
    exact nofun
  have shape : enterListening own c clamped s =
      settle false (tripThrust (recordForce s.inputs.force (listeningWith own c clamped s))) := congrArg (settle false) taken
  rw [shape]
  have base := (base_settle false _).trans
    (base_tripThrust (recordForce s.inputs.force (listeningWith own c clamped s)))
  refine ⟨(evalKeeps_settle false _).tripped.2 (tripThrust_mode _), ?_, fun empty => ?_⟩
  · rw [trips_of_base base]
    exact mem_withPair_self _ _
  · refine trip_sent ?_ false
    rw [addTrip_bus]
    change s.bus.queue.length < 6
    rw [empty]
    decide

theorem enterListening_harmless (hold : s.thrust.mode = .hold) (low : s.inputs.force ≤ c.tripForce) :
    (enterListening own c clamped s).thrust.mode ≠ .tripped := by
  have mode : (firstForce own c clamped s).thrust.mode = .hold := by
    rcases takeForce_cases s.inputs.force (listeningWith own c clamped s) with ⟨high, _⟩ | ⟨_, pressing, _⟩ | ⟨_, _, e⟩
    · exact absurd low (Nat.not_le.2 high)
    · exact absurd (hold.symm.trans pressing) nofun
    · unfold firstForce
      rw [e]
      exact hold
  have kept := (evalKeeps_settle false (firstForce own c clamped s)).tripped
  exact fun tripped => absurd (mode.symm.trans (kept.1 tripped)) nofun

end

/-- Settles O8: the reading by its checks, what LISTENING begins with by the first force reading and the end of its event. -/
theorem configurationReadDecides : Obligations.ConfigurationReadDecides := by
  refine ⟨fun pins m s starting whole fails => ?_, fun pins m s starting whole check marker below => ?_,
    fun pins bytes s whole => ?_, fun pins s starting => ?_, fun pins bytes s other => ?_⟩
  · refine ⟨_, exec_configurationRead starting whole, ?_⟩
    by_cases faulty : checkByteGood (m.map BitVec.toNat) = false ∨ memByte (m.map BitVec.toNat) 0 ≠ 58
    · rw [if_pos faulty]
    · rw [if_neg faulty, if_neg]
      simp only [not_or, Bool.not_eq_false, not_not, checkByteGood_map whole, marker_map whole, decide_eq_true_eq] at faulty
      obtain ⟨check, marker⟩ := faulty
      rw [configOf_n whole]
      rcases fails with bad | bad | high
      · exact absurd check bad
      · exact absurd marker bad
      · exact Nat.not_lt.2 high
  · have good : checkByteGood (m.map BitVec.toNat) = true := by
      rw [checkByteGood_map whole]
      exact decide_eq_true check
    have passes : ¬(checkByteGood (m.map BitVec.toNat) = false ∨ memByte (m.map BitVec.toNat) 0 ≠ 58) := by
      rintro (bad | bad)
      · exact absurd (good.symm.trans bad) nofun
      · exact bad ((marker_map whole).2 marker)
    have run := exec_configurationRead (pins := pins) starting whole
    rw [if_neg passes, if_pos (by rw [configOf_n whole]; exact below)] at run
    obtain ⟨own, cfg, clamped, listen, probe, clock⟩ :=
      enterListening_base (own := pins.toNat) (c := configOf m) (clamped := clampedBy m) (s := s)
    obtain ⟨drive, line⟩ :=
      enterListening_rests (own := pins.toNat) (c := configOf m) (clamped := clampedBy m) (s := s)
    refine ⟨_, run, enterListening_life _ _ _ _, own, ?_⟩
    rw [cfg, own]
    obtain ⟨screw, erector, driven, lined⟩ := configOf_roles whole
    exact ⟨configOf_n whole, screw, erector, driven, lined, configOf_values clamped whole, listen, probe, clock,
      fun covered => enterListening_ring (by_contra fun build => absurd (starting.symm.trans (covered.1 build)) nofun),
      enterListening_trips, enterListening_harmless, drive, line⟩
  · refine congrArg Host.Outcome.next ?_
    unfold configurationRead
    rw [readMemory_ones]
  · refine congrArg Host.Outcome.next ((if_pos starting).trans ?_)
    exact if_pos (by decide)
  · exact congrArg Host.Outcome.next (if_neg other)

end Sys2Proof.Machine
end

section
/-! PROOF. What a STATE arrival stores in the peer view: entry, trip memory, BLIND, role conflicts (01 R3, R15 to R20; 10
R152). -/

namespace Sys2Proof.Machine

open Sys2Proof

/-! ### The trip memory after a STATE -/

theorem mem_withPair {p q : TripPair} {l : List TripPair} : q ∈ withPair p l ↔ q = p ∨ q ∈ l := by
  unfold withPair
  split
  · next known =>
    have known : p ∈ l := by simpa using known
    exact ⟨.inr, fun h => h.elim (fun e => e ▸ known) id⟩
  · simp [or_comm]

/-- A pair in the trip memory after a STATE: a pair of another station or a CAB STOP stays, of the source's other causes
exactly those listed are held (01 R15, R16). -/
theorem mem_tripsAfter {src : Nat} {body : StateBody} {l : List TripPair} {q : TripPair} :
    q ∈ tripsAfter src body l ↔
      (q ∈ l ∧ (q.1 ≠ src ∨ q.2 = .cabStop ∨ bodyLists body q.2 = true))
        ∨ (body.ownThrust = true ∧ q = (src, .thrust)) ∨ (body.ownStall = true ∧ q = (src, .stall)) := by
  unfold tripsAfter
  dsimp only
  cases body.ownThrust <;> cases body.ownStall <;> simp [mem_withPair, or_assoc]
  all_goals tauto

theorem thrust_mem_tripsAfter {src : Nat} {body : StateBody} {l : List TripPair} :
    (src, TripCause.thrust) ∈ tripsAfter src body l ↔ body.ownThrust = true := by
  simp [mem_tripsAfter, bodyLists]

theorem stall_mem_tripsAfter {src : Nat} {body : StateBody} {l : List TripPair} :
    (src, TripCause.stall) ∈ tripsAfter src body l ↔ body.ownStall = true := by
  simp [mem_tripsAfter, bodyLists]

theorem other_mem_tripsAfter {src : Nat} {body : StateBody} {l : List TripPair} {q : TripPair}
    (other : q.1 ≠ src ∨ q.2 = .cabStop) : q ∈ tripsAfter src body l ↔ q ∈ l := by
  obtain ⟨a, c⟩ := q
  simp only [mem_tripsAfter, Prod.mk.injEq]
  rcases other with foreign | rfl
  · simp_all
  · simp

/-! ### The peer view after a STATE -/

/-- The peer view with a STATE taken, the role conflicts judged on it. -/
def stateHeard (src : Nat) (body : StateBody) (s : State) : State :=
  conflictEval (withTrips (tripsAfter src body s.view.trips) (storeBody src body s))

/-- The station with the STATE taken by the peer view, before the build unit (01 R3, R15 to R20). -/
def stateKnown (src : Nat) (body : StateBody) (s : State) : State :=
  leaveBlind (standAside (conflictEval (setTrips (tripsAfter src body s.view.trips) (storeBody src body s))))

/-- The station after all that a STATE brings, before the event ends. -/
def stateTaken (src : Nat) (body : StateBody) (s : State) : State :=
  decideRetract (marginWatch (retryAtArrival (ringArrival src (storedBody s src) body (stateKnown src body s))))

theorem exec_stateArrival {src : Nat} {body : StateBody} {s : State} (running : s.running = true) (below : src < s.cfg.n)
    (foreign : src ≠ s.own) :
    exec (.stateArrival src body) s = .next (settle true (stateTaken src body s)) := by
  refine congrArg Host.Outcome.next ((if_neg foreign).trans (if_pos ?_))
  simp [running, takenSource, below, foreign]

theorem base_conflictEval {x y : State} (same : baseOf x = baseOf y) :
    baseOf (conflictEval x) = baseOf (conflictEval y) := by
  have screw : lowerScrew x = lowerScrew y := lowerClaims_of_base same Roles.screw
  have erector : lowerErector x = lowerErector y := lowerClaims_of_base same Roles.erector
  have judged : ∀ u : State, baseOf (conflictEval u) =
      { baseOf u with
        view :=
          { (baseOf u).view with
            screwConflict := u.cfg.roles.screw && lowerScrew u
            erectorConflict := u.cfg.roles.erector && lowerErector u } } := fun _ => rfl
  rw [judged x, judged y, same, screw, erector, cfg_of_base same]

theorem base_leaveBlind {x y : State} (same : baseOf x = baseOf y) : baseOf (leaveBlind x) = baseOf (leaveBlind y) := by
  have blind : x.view.blind = y.view.blind := congrArg (fun b => b.view.blind) same
  have completion : x.view.completion = y.view.completion := congrArg (fun b => b.view.completion) same
  unfold leaveBlind
  rw [blind, completion, freshPeers_of_base same]
  split
  · have cleared : ∀ u : State, baseOf { u with view := { u.view with blind := false, silence := 0 } } =
        { baseOf u with view := { (baseOf u).view with blind := false, silence := 0 } } := fun _ => rfl
    rw [cleared x, cleared y, same]
  · exact same

theorem base_stateKnown (src : Nat) (body : StateBody) (s : State) :
    baseOf (stateKnown src body s) = baseOf (leaveBlind (stateHeard src body s)) :=
  base_leaveBlind ((base_standAside _).trans (base_conflictEval (base_setTrips _ _)))

theorem base_ringArrival (src : Nat) (old : Option StateBody) (body : StateBody) (s : State) :
    baseOf (ringArrival src old body s) = baseOf s := by
  have adopts : ∀ r, baseOf (adoptRing r s) = baseOf s := by
    intro r
    unfold adoptRing
    rw [base_closeRing]
    split
    · rfl
    · rw [base_pressIfWithdrawn]
      rfl
  unfold ringArrival
  split
  · split
    · rfl
    · rfl
  · split
    · exact adopts _
    · split
      · exact adopts _
      · split
        · unfold followSuspension stateCatchUp
          repeat' split
          all_goals simp only [base_suspendBuild, base_catchUp, base_raiseMismatch]
        · rfl
  · rfl

theorem base_stateTaken (src : Nat) (body : StateBody) (s : State) :
    baseOf (stateTaken src body s) = baseOf (leaveBlind (stateHeard src body s)) := by
  unfold stateTaken
  rw [base_decideRetract, base_marginWatch, base_retryAtArrival, base_ringArrival, base_stateKnown]

/-- The source of a STATE is a FRESH peer. -/
theorem mem_freshPeers_stateHeard {src : Nat} {body : StateBody} {s : State} (small : src < 8) (foreign : src ≠ s.own)
    (whole : s.view.peers.length = 8) : (src, body) ∈ freshPeers (stateHeard src body s) := by
  have entry : entryOf (stateHeard src body s) src =
      { held := some { body := body, age := 0, fresh := true }, pace := some body.pace } := by
    change (s.view.peers.set src _).getD src PeerEntry.absent = _
    simp [List.getD, whole, small]
  have fresh : freshBody (stateHeard src body s) src = some body := by
    unfold freshBody
    rw [if_neg (by exact foreign), entry]
    rfl
  refine List.mem_filterMap.2 ⟨src, ?_, by rw [fresh]; rfl⟩
  simp
  omega

/-- Of the other peers a STATE changes none. -/
theorem freshPeers_stateHeard {src : Nat} {body : StateBody} {s : State} {p : Nat × StateBody}
    (there : p ∈ freshPeers (stateHeard src body s)) (other : p.1 ≠ src) : p ∈ freshPeers s := by
  obtain ⟨a, inRange, is⟩ := List.mem_filterMap.1 there
  refine List.mem_filterMap.2 ⟨a, inRange, ?_⟩
  obtain ⟨b, fresh, rfl⟩ := Option.map_eq_some_iff.1 is
  have entry : entryOf (stateHeard src body s) a = entryOf s a := by
    change (s.view.peers.set src _).getD a PeerEntry.absent = s.view.peers.getD a PeerEntry.absent
    simp [List.getD, List.getElem?_set_ne (Ne.symm other)]
  have same : freshBody (stateHeard src body s) a = freshBody s a := by
    unfold freshBody
    rw [entry]
    rfl
  rw [← same, fresh]
  rfl

theorem leaveBlind_view (s : State) : (leaveBlind s).view =
    { s.view with blind := (leaveBlind s).view.blind, silence := (leaveBlind s).view.silence } := by
  obtain ⟨blind, silence, shape⟩ := leaveBlind_eq s
  rw [shape]

/-- A BLIND station whose completion marker is set leaves BLIND with a FRESH peer (01 R18). -/
theorem leaveBlind_fresh {s : State} (fresh : freshPeers s ≠ []) :
    (leaveBlind s).view.blind = (s.view.blind && !s.view.completion)
      ∧ (s.view.blind = true → s.view.completion = true → (leaveBlind s).view.silence = 0) := by
  have some_ : (freshPeers s).isEmpty = false := by simpa using fresh
  unfold leaveBlind
  rw [some_]
  cases blind : s.view.blind <;> cases completion : s.view.completion <;> simp [blind, completion]

/-- Clause 1 of O15: the peer view and the base after a STATE arrival. -/
theorem stateArrival_view {src : Nat} {body : StateBody} {s t : State}
    (base : baseOf t = baseOf (leaveBlind (stateHeard src body s))) (small : src < 8) (foreign : src ≠ s.own) :
    t.view.peers = s.view.peers.set src { held := some { body := body, age := 0, fresh := true }, pace := some body.pace }
      ∧ ((src, TripCause.thrust) ∈ t.view.trips ↔ body.ownThrust = true)
      ∧ ((src, TripCause.stall) ∈ t.view.trips ↔ body.ownStall = true)
      ∧ (∀ q : TripPair, q.1 ≠ src ∨ q.2 = .cabStop → (q ∈ t.view.trips ↔ q ∈ s.view.trips))
      ∧ t.view.heard = true
      ∧ (s.view.peers.length = 8 →
          t.view.blind = (s.view.blind && !s.view.completion)
            ∧ (s.view.blind = true → s.view.completion = true → t.view.silence = 0))
      ∧ t.view.screwConflict = (s.cfg.roles.screw && lowerClaims Roles.screw t)
      ∧ t.view.erectorConflict = (s.cfg.roles.erector && lowerClaims Roles.erector t)
      ∧ baseOf t = { baseOf s with view := (baseOf t).view, bus := { (baseOf s).bus with lastSource := some src } } := by
  have view := leaveBlind_view (stateHeard src body s)
  have peers : (leaveBlind (stateHeard src body s)).view.peers = (stateHeard src body s).view.peers := by rw [view]
  have trips : t.view.trips = tripsAfter src body s.view.trips := by rw [trips_of_base base, view]; rfl
  have claims : ∀ role, lowerClaims role t = lowerClaims role (stateHeard src body s) := by
    intro role
    rw [lowerClaims_of_base base]
    obtain ⟨blind, silence, shape⟩ := leaveBlind_eq (stateHeard src body s)
    rw [shape]
    rfl
  have screw : t.view.screwConflict = (stateHeard src body s).view.screwConflict :=
    (congrArg (fun b => b.view.screwConflict) base).trans (congrArg View.screwConflict view)
  have erector : t.view.erectorConflict = (stateHeard src body s).view.erectorConflict :=
    (congrArg (fun b => b.view.erectorConflict) base).trans (congrArg View.erectorConflict view)
  refine ⟨(peers_of_base base).trans peers, ?_, ?_, fun q other => ?_, ?_, fun whole => ?_, ?_, ?_, ?_⟩
  · rw [trips]
    exact thrust_mem_tripsAfter
  · rw [trips]
    exact stall_mem_tripsAfter
  · rw [trips]
    exact other_mem_tripsAfter other
  · exact (congrArg (fun b => b.view.heard) base).trans (congrArg View.heard view)
  · obtain ⟨left, cleared⟩ :=
      leaveBlind_fresh (List.ne_nil_of_mem (mem_freshPeers_stateHeard (body := body) small foreign whole))
    exact ⟨(congrArg (fun b => b.view.blind) base).trans left,
      fun blind completion => (congrArg (fun b => b.view.silence) base).trans (cleared blind completion)⟩
  · rw [screw, claims]
    rfl
  · rw [erector, claims]
    rfl
  · rw [base]
    obtain ⟨blind, silence, shape⟩ := leaveBlind_eq (stateHeard src body s)
    rw [shape]
    rfl

end Sys2Proof.Machine
end

section
/-! PROOF. What suspension and catch-up make of plan, group and record (03 R46, R57), and an event's end at a station without
the ERECTOR role. -/

namespace Sys2Proof.Machine

open Sys2Proof

/-! ### Suspension -/

theorem plan_suspendBuild (s : State) : planOf (suspendBuild s) =
    if s.build.state = .building then { planOf s with state := .suspended, retry := none } else planOf s := by
  split
  · next building => exact (suspendBuild_effect building).1
  · next idle => rw [suspendBuild, if_neg idle]

/-- A suspension keeps whether the record says CAUGHT UP, and whether it has a build part. -/
theorem caughtUp_suspendBuild (s : State) :
    (suspendBuild s).records.current.build.map BuildPart.caughtUp = s.records.current.build.map BuildPart.caughtUp := by
  by_cases building : s.build.state = .building
  · rw [(suspendBuild_effect building).2, Option.map_map]
    rfl
  · rw [suspendBuild, if_neg building]

theorem pressIfWithdrawn_kept {s : State} (in_ : withdrawn s = false) : pressIfWithdrawn s = s := by
  unfold pressIfWithdrawn
  rw [in_]
  rfl

/-- A suspension presses the group or leaves its mode. -/
theorem suspendBuild_mode (s : State) :
    (suspendBuild s).thrust.mode = s.thrust.mode ∨ (suspendBuild s).thrust.mode = (pressIfWithdrawn s).thrust.mode := by
  rcases suspendBuild_cases s with ⟨_, e⟩ | ⟨_, p, rfl | rfl, e⟩
  · rw [e]; exact .inl rfl
  · rw [e]; exact .inl rfl
  · rw [e]; exact .inr rfl

theorem suspendBuild_mode_in {s : State} (in_ : withdrawn s = false) : (suspendBuild s).thrust.mode = s.thrust.mode := by
  rcases suspendBuild_mode s with same | pressed
  · exact same
  · rw [pressed, pressIfWithdrawn_kept in_]

/-- A suspension presses a withdrawn group whose entry is PENDING or EMPTY (03 R46). -/
theorem suspendBuild_presses {s : State} (building : s.build.state = .building) (out : withdrawn s = true)
    (entry : currentEntryState s = some .pending ∨ currentEntryState s = some .empty)
    (weak : s.inputs.force < s.cfg.pressForce) : (suspendBuild s).thrust.mode = .pressing := by
  have pressed := pressIfWithdrawn_mode out
  rw [if_neg (Nat.not_le.2 weak)] at pressed
  rw [suspendBuild, if_pos building]
  rcases entry with entry | entry <;> rw [entry] <;> exact pressed

/-! ### Catch-up -/

/-- The entries once those below `j` are SET. -/
def entriesSet (j : Nat) (l : List PlanEntry) : List PlanEntry :=
  (l.take j).map (fun p => { p with state := .set }) ++ l.drop j

theorem entriesSet_getElem? {j : Nat} {l : List PlanEntry} (there : j < l.length) : (entriesSet j l)[j]? = l[j]? := by
  unfold entriesSet
  rw [List.getElem?_append_right (by simp)]
  simp [Nat.min_eq_left (Nat.le_of_lt there)]

/-- The station as a catch-up has moved the index and pressed the group, before it judges the entry it reached. -/
def caughtTo (j : Nat) (s : State) : State :=
  pressIfWithdrawn (onBuildPart (fun b => { b with caughtUp := true }) (pressPassed (moveIndex j s)))

theorem catchUp_eq (j : Nat) (s : State) : catchUp j s = judgeEmpty (caughtTo j s) := rfl

theorem plan_caughtTo (j : Nat) (s : State) :
    planOf (caughtTo j s) = { planOf s with entries := entriesSet j s.build.entries, index := j, retry := none } := by
  unfold caughtTo
  rw [plan_pressIfWithdrawn]
  rcases pressPassed_cases (moveIndex j s) with e | ⟨_, _, _, _, e⟩ <;> rw [e] <;> rfl

theorem caughtTo_records (j : Nat) (s : State) :
    (caughtTo j s).records.current.build.map BuildPart.caughtUp = s.records.current.build.map (fun _ => true) := by
  have pressed : ∀ u : State, (pressIfWithdrawn u).records = u.records := by
    intro u
    rcases pressIfWithdrawn_cases u with e | e | e <;> rw [e] <;> rfl
  have passed : (pressPassed (moveIndex j s)).records = s.records := by
    rcases pressPassed_cases (moveIndex j s) with e | ⟨_, _, _, _, e⟩ <;> rw [e] <;> rfl
  unfold caughtTo
  rw [pressed]
  change ((pressPassed (moveIndex j s)).records.current.build.map _).map _ = _
  rw [passed, Option.map_map]
  rfl

theorem caughtTo_mode (j : Nat) (s : State) :
    (caughtTo j s).thrust.mode = (pressIfWithdrawn s).thrust.mode ∧ withdrawn (caughtTo j s) = false := by
  refine ⟨?_, withdrawn_pressIfWithdrawn _⟩
  have moved : ∀ u : State, u.thrust = s.thrust → u.inputs = s.inputs → u.cfg = s.cfg →
      (pressIfWithdrawn u).thrust.mode = (pressIfWithdrawn s).thrust.mode := by
    intro u thrust inputs cfg
    by_cases out : withdrawn s = true
    · rw [pressIfWithdrawn_mode out, pressIfWithdrawn_mode (by unfold withdrawn; rw [thrust]; exact out), inputs, cfg]
    · have in_ := Bool.eq_false_iff.2 out
      rw [pressIfWithdrawn_kept in_, pressIfWithdrawn_kept (by unfold withdrawn; rw [thrust]; exact in_), thrust]
  refine moved _ ?_ ?_ ?_
  all_goals
    rcases pressPassed_cases (moveIndex j s) with e | ⟨_, _, _, _, e⟩
    · rw [e]; rfl
    · rw [e]; rfl

theorem caughtTo_current {j : Nat} {e : PlanEntry} {s : State} (entry : s.build.entries[j]? = some e) :
    currentEntryState (caughtTo j s) = some e.state := by
  have entries : (caughtTo j s).build.entries = entriesSet j s.build.entries := congrArg Build.entries (plan_caughtTo j s)
  have index : (caughtTo j s).build.index = j := congrArg Build.index (plan_caughtTo j s)
  obtain ⟨there, _⟩ := List.getElem?_eq_some_iff.1 entry
  unfold currentEntryState planAt
  rw [entries, index, entriesSet_getElem? there, entry]
  rfl

/-- What a catch-up makes of the plan (03 R57, R46). -/
theorem plan_catchUp {j : Nat} {e : PlanEntry} {s : State} (entry : s.build.entries[j]? = some e) :
    planOf (catchUp j s) =
      { planOf s with
        entries := entriesSet j s.build.entries, index := j, retry := none
        planMismatch := s.build.planMismatch || decide (e.state = .empty)
        state := if s.build.state = .building ∧ e.state = .empty then .suspended else s.build.state } := by
  have plan := plan_caughtTo j s
  have state : (caughtTo j s).build.state = s.build.state := by
    have same := congrArg Build.state plan
    exact same
  rw [catchUp_eq, judgeEmpty, caughtTo_current entry]
  by_cases empty : e.state = .empty
  · rw [if_pos (by rw [empty]), plan_suspendBuild]
    have raised : planOf (raiseMismatch (caughtTo j s)) = { planOf (caughtTo j s) with planMismatch := true } := rfl
    rw [raised, plan]
    change (if (caughtTo j s).build.state = .building then _ else _) = _
    rw [state]
    split
    · next building => simp [empty, building]
    · next idle => simp [empty, idle, planOf]
  · rw [if_neg (by simpa using empty), plan]
    simp [empty, planOf]

theorem catchUp_records (j : Nat) (s : State) :
    (catchUp j s).records.current.build.map BuildPart.caughtUp = s.records.current.build.map (fun _ => true) := by
  rw [catchUp_eq, judgeEmpty]
  split
  · exact (caughtUp_suspendBuild _).trans (caughtTo_records j s)
  · exact caughtTo_records j s

theorem catchUp_mode (j : Nat) (s : State) :
    (catchUp j s).thrust.mode = (pressIfWithdrawn s).thrust.mode ∧ withdrawn (catchUp j s) = false := by
  obtain ⟨mode, in_⟩ := caughtTo_mode j s
  rw [catchUp_eq, judgeEmpty]
  split
  · have same : (suspendBuild (raiseMismatch (caughtTo j s))).thrust.mode = (caughtTo j s).thrust.mode :=
      suspendBuild_mode_in (s := raiseMismatch (caughtTo j s)) in_
    exact ⟨same.trans mode, by unfold withdrawn at in_ ⊢; rw [same]; exact in_⟩
  · exact ⟨mode, in_⟩

/-! ### The watches after a STATE -/

/-- A group that is not withdrawn has no margin watch. -/
theorem marginWatch_in {s : State} (in_ : withdrawn s = false) : marginWatch s = s :=
  if_neg (by simp [in_])

theorem retryAtArrival_none {s : State} (none : s.build.retry = none) : retryAtArrival s = s := by
  unfold retryAtArrival
  rw [none]

/-- Entries, index and PLAN MISMATCH of a plan. -/
def coreOf (b : Build) : List PlanEntry × Nat × Bool := (b.entries, b.index, b.planMismatch)

theorem core_of_plan {s t : State} (same : planOf t = planOf s) : coreOf t.build = coreOf s.build := by
  have core := congrArg coreOf same
  exact core

theorem core_suspendBuild (s : State) : coreOf (suspendBuild s).build = coreOf s.build := by
  have plan := congrArg coreOf (plan_suspendBuild s)
  refine plan.trans ?_
  split <;> rfl

theorem core_retryAtArrival (s : State) : coreOf (retryAtArrival s).build = coreOf s.build := by
  unfold retryAtArrival
  repeat' split
  all_goals rfl

theorem core_marginWatch (s : State) : coreOf (marginWatch s).build = coreOf s.build := by
  have aborted : coreOf (abortWithdrawal s).build = coreOf s.build := by
    have pressed := core_of_plan (s := s) (t := pressRequest s) (by
      rcases pressRequest_cases s with e | e | ⟨_, e⟩ <;> rw [e] <;> rfl)
    exact pressed
  unfold marginWatch
  repeat' split
  · rfl
  · exact aborted
  · rfl
  · rfl
  · rfl

theorem settle_plan_absent {lim : Bool} {e : State} (absent : e.cfg.roles.erector = false) :
    planOf (settle lim e) = planOf e := ((settle_frame lim e).2.2 absent).1

/-- At a station without ERECTOR an event's end leaves the record's build part. -/
theorem settle_buildPart_absent {lim : Bool} {e : State} (absent : e.cfg.roles.erector = false) :
    (settle lim e).records.current.build = e.records.current.build := by
  have units : ∀ u, (unitsEval lim u).records.current.build = u.records.current.build := by
    intro u
    rcases unitsEval_records lim u with same | flagged
    · rw [same]
    · rw [flagged]
      rfl
  unfold settle
  split
  · change (injectionEval (unitsAtEnd lim e)).records.current.build = _
    rw [injectionEval_records]
    refine (units _).trans ?_
    rw [erectorEval_absent (by rw [roles_unitsEval]; exact absent)]
    exact units e
  · rfl

end Sys2Proof.Machine
end

section
/-! PROOF. A STATE arrival at the build unit: the suspension that is followed and the catch-up (03 R47, R57), and O15. -/

namespace Sys2Proof.Machine

open Sys2Proof

/-! ### The erector station in view -/

theorem lowestOf_spec (l : List Nat) :
    (l = [] ∧ lowestOf l = none) ∨ ∃ m, lowestOf l = some m ∧ m ∈ l ∧ ∀ b ∈ l, m ≤ b := by
  induction l with
  | nil => exact .inl ⟨rfl, rfl⟩
  | cons a l ih =>
    right
    unfold lowestOf
    rcases ih with ⟨rfl, none⟩ | ⟨m, some_, mem, least⟩
    · rw [none]
      exact ⟨a, rfl, by simp, by simp⟩
    · rw [some_]
      refine ⟨min a m, rfl, ?_, fun b there => ?_⟩
      · rcases Nat.le_total a m with le | le
        · simp [Nat.min_eq_left le]
        · simp [Nat.min_eq_right le, mem]
      · rcases List.mem_cons.1 there with rfl | there
        · exact Nat.min_le_left _ _
        · exact (Nat.min_le_right _ _).trans (least b there)

theorem lowestOf_eq {a : Nat} {l : List Nat} (mem : a ∈ l) (least : ∀ b ∈ l, a ≤ b) : lowestOf l = some a := by
  rcases lowestOf_spec l with ⟨rfl, _⟩ | ⟨m, some_, there, lowest⟩
  · cases mem
  · rw [some_, Nat.le_antisymm (lowest a mem) (least m there)]

section
variable {src : Nat} {body : StateBody} {s : State} (small : src < 8) (foreign : src ≠ s.own)
  (whole : s.view.peers.length = 8) (role : body.roles.erector = true)
include small foreign whole role

/-- A STATE whose sender carries ERECTOR at the lowest address in view makes it the erector station (01 R13). -/
theorem erectorStation_stateHeard (below : s.cfg.roles.erector = true → src < s.own)
    (lowest : (freshPeers s).all (fun p => !p.2.roles.erector || decide (src ≤ p.1)) = true) {t : State}
    (base : baseOf t = baseOf (leaveBlind (stateHeard src body s))) : erectorStation t = some src := by
  obtain ⟨blind, silence, shape⟩ := leaveBlind_eq (stateHeard src body s)
  have fresh : freshPeers t = freshPeers (stateHeard src body s) := by
    rw [freshPeers_of_base base, shape]
    rfl
  have own : t.own = s.own := by rw [own_of_base base, shape]; rfl
  have cfg : t.cfg = s.cfg := by rw [cfg_of_base base, shape]; rfl
  unfold erectorStation
  rw [fresh, own, cfg]
  refine lowestOf_eq ?_ fun b there => ?_
  · refine List.mem_append_right _ (List.mem_map.2 ⟨(src, body), List.mem_filter.2 ⟨?_, role⟩, rfl⟩)
    exact mem_freshPeers_stateHeard small foreign whole
  · rcases List.mem_append.1 there with own | peer
    · split at own
      · next present =>
        obtain rfl : b = s.own := by simpa using own
        exact Nat.le_of_lt (below present)
      · cases own
    · obtain ⟨p, found, rfl⟩ := List.mem_map.1 peer
      obtain ⟨found, carries⟩ := List.mem_filter.1 found
      by_cases same : p.1 = src
      · exact Nat.le_of_eq same.symm
      · have known := List.all_eq_true.1 lowest p (freshPeers_stateHeard found same)
        have carries : p.2.roles.erector = true := carries
        simpa [carries] using known

/-- An erector station that hears a lower one stands in conflict (01 R20). -/
theorem stateHeard_conflict (present : s.cfg.roles.erector = true) (below : src < s.own) :
    (stateHeard src body s).view.erectorConflict = true := by
  have claims : lowerClaims Roles.erector (stateHeard src body s) = true := by
    unfold lowerClaims
    refine List.any_eq_true.2 ⟨(src, body), mem_freshPeers_stateHeard small foreign whole, ?_⟩
    have lower : src < (stateHeard src body s).own := below
    simp [lower, role]
  change (s.cfg.roles.erector && lowerClaims Roles.erector (stateHeard src body s)) = true
  rw [present, claims]
  rfl

end

/-! ### The build unit in the event -/

/-- What the sender's body does at a READY station on its ring (03 R47, R57). -/
theorem ringArrival_same {src : Nat} {old : Option StateBody} {body : StateBody} {s : State} (ready : s.life = .ready)
    (station : erectorStation s = some src) (ring : body.ring = s.records.ring)
    (goesOn : body.build ≠ .ringOpen ∨ body.ring ≠ 65535) :
    ringArrival src old body s = followSuspension old body (stateCatchUp body s) := by
  have last : lastRingClosed src old body s = false := by
    unfold lastRingClosed
    rcases goesOn with building | lower
    · simp [building]
    · simp [lower]
  unfold ringArrival
  rw [ready]
  dsimp only
  rw [if_neg (by omega), if_neg (by simp [last]), if_pos (by simp [station, ring])]

theorem setTrips_eq (l : List TripPair) (s : State) :
    setTrips l s = if s.view.trips = [] ∧ l ≠ [] then suspendBuild (withTrips l s) else withTrips l s := by
  unfold setTrips
  dsimp only
  refine if_congr ?_ rfl rfl
  simp

theorem tripsAfter_first {src : Nat} {body : StateBody} {l : List TripPair} :
    (l = [] ∧ tripsAfter src body l ≠ []) ↔ (l = [] ∧ (body.ownThrust = true ∨ body.ownStall = true)) := by
  refine and_congr_right fun empty => ?_
  subst empty
  unfold tripsAfter
  cases body.ownThrust <;> cases body.ownStall <;> simp [withPair]

/-- The first trip in view (03 R46). -/
def firstTrip (body : StateBody) (s : State) : Prop :=
  s.view.trips = [] ∧ (body.ownThrust = true ∨ body.ownStall = true)

/-- A suspension reads neither the peer view nor the bus interface. -/
theorem suspendBuild_view (v : View) (b : Bus) (s : State) :
    suspendBuild { s with view := v, bus := b } = { suspendBuild s with view := v, bus := b } := by
  have pressed : pressIfWithdrawn { s with view := v, bus := b } = { pressIfWithdrawn s with view := v, bus := b } := by
    unfold pressIfWithdrawn pressRequest withdrawn
    dsimp only
    cases s.thrust.mode <;> dsimp only <;> (repeat' split) <;> rfl
  have current : currentEntryState { s with view := v, bus := b } = currentEntryState s := rfl
  unfold suspendBuild
  rw [pressed, current]
  dsimp only
  by_cases building : s.build.state = .building
  · rw [if_pos building, if_pos building]
    split <;> rfl
  · rw [if_neg building, if_neg building]

/-- At a station without ERECTOR the peer view's part of a STATE suspends a build with the first trip, and besides
changes the view and the bus interface alone. -/
theorem stateKnown_absent {src : Nat} {body : StateBody} {s : State} (absent : s.cfg.roles.erector = false) :
    ∃ v b, (firstTrip body s ∧ stateKnown src body s = { suspendBuild s with view := v, bus := b })
      ∨ (¬firstTrip body s ∧ stateKnown src body s = { s with view := v, bus := b }) := by
  have waits : ∀ u : State, u.cfg = s.cfg → ∃ v, leaveBlind (standAside (conflictEval u)) = { u with view := v } := by
    intro u cfg
    have free : (conflictEval u).view.erectorConflict = false := by
      change (u.cfg.roles.erector && _) = false
      rw [cfg, absent]
      rfl
    have aside : standAside (conflictEval u) = conflictEval u := if_neg (by simp [free])
    obtain ⟨blind, silence, shape⟩ := leaveBlind_eq (conflictEval u)
    rw [aside, shape]
    exact ⟨_, rfl⟩
  have first : (s.view.trips = [] ∧ tripsAfter src body s.view.trips ≠ []) ↔ firstTrip body s := tripsAfter_first
  by_cases trips : firstTrip body s
  · have set_ : setTrips (tripsAfter src body s.view.trips) (storeBody src body s) =
        suspendBuild (withTrips (tripsAfter src body s.view.trips) (storeBody src body s)) :=
      (setTrips_eq _ _).trans (if_pos (first.2 trips))
    obtain ⟨v, shape⟩ := waits (suspendBuild (withTrips (tripsAfter src body s.view.trips) (storeBody src body s)))
      (by
        have same := cfg_of_base
          (base_suspendBuild (withTrips (tripsAfter src body s.view.trips) (storeBody src body s)))
        exact same)
    have commutes : suspendBuild (withTrips (tripsAfter src body s.view.trips) (storeBody src body s)) =
        { suspendBuild s with
          view := { (storeBody src body s).view with trips := tripsAfter src body s.view.trips }
          bus := (storeBody src body s).bus } := suspendBuild_view _ _ s
    refine ⟨v, (storeBody src body s).bus, .inl ⟨trips, ?_⟩⟩
    unfold stateKnown
    rw [set_, shape, commutes]
  · have set_ : setTrips (tripsAfter src body s.view.trips) (storeBody src body s) =
        withTrips (tripsAfter src body s.view.trips) (storeBody src body s) :=
      (setTrips_eq _ _).trans (if_neg fun h => trips (first.1 h))
    obtain ⟨v, shape⟩ := waits (withTrips (tripsAfter src body s.view.trips) (storeBody src body s)) rfl
    refine ⟨v, (storeBody src body s).bus, .inr ⟨trips, ?_⟩⟩
    unfold stateKnown
    rw [set_, shape]
    rfl

/-- What stands at a station without ERECTOR as the STATE reaches its build unit. -/
structure KnownState (body : StateBody) (s k : State) : Prop where
  suspends : s.build.state = .building → firstTrip body s → planOf k = { planOf s with state := .suspended, retry := none }
  keeps : ¬(s.build.state = .building ∧ firstTrip body s) → planOf k = planOf s
  cfg : k.cfg = s.cfg
  inputs : k.inputs = s.inputs
  life : k.life = s.life
  ring : k.records.ring = s.records.ring
  part : k.records.current.build.map (fun _ => true) = s.records.current.build.map (fun _ => true)
  mode : k.thrust.mode = s.thrust.mode ∨ k.thrust.mode = (pressIfWithdrawn s).thrust.mode

theorem knownState {src : Nat} {body : StateBody} {s : State} (absent : s.cfg.roles.erector = false) :
    KnownState body s (stateKnown src body s) := by
  obtain ⟨v, b, ⟨first, shape⟩ | ⟨later, shape⟩⟩ := stateKnown_absent (src := src) (body := body) absent
  · have base := base_suspendBuild s
    have part : (suspendBuild s).records.current.build.map (fun _ => true) =
        s.records.current.build.map (fun _ => true) := by
      have same := congrArg (Option.map fun _ => true) (caughtUp_suspendBuild s)
      rw [Option.map_map, Option.map_map] at same
      exact same
    have cfg : (suspendBuild s).cfg = s.cfg := cfg_of_base base
    have inputs : (suspendBuild s).inputs = s.inputs := congrArg Base.inputs base
    have life : (suspendBuild s).life = s.life := congrArg Base.life base
    have ring : (suspendBuild s).records.ring = s.records.ring := congrArg RingPart.ring (ring_suspendBuild s)
    rw [shape]
    refine ⟨fun building _ => ?_, fun idle => ?_, cfg, inputs, life, ring, part, suspendBuild_mode s⟩
    · exact (plan_suspendBuild s).trans (if_pos building)
    · exact (plan_suspendBuild s).trans (if_neg fun building => idle ⟨building, first⟩)
  · rw [shape]
    exact ⟨fun _ first => absurd first later, fun _ => rfl, rfl, rfl, rfl, rfl, rfl, .inl rfl⟩

/-- The sender has gone from BUILDING to SUSPENDED (03 R47). -/
def suspensionSeen (src : Nat) (body : StateBody) (s : State) : Prop :=
  body.build = .suspended ∧ (entryOf s src).held.map (fun x => x.body.build) = some .building

theorem followSuspension_seen {src : Nat} {body : StateBody} {s : State} (k : State) (seen : suspensionSeen src body s) :
    followSuspension (storedBody s src) body k = suspendBuild k := by
  obtain ⟨suspended, building⟩ := seen
  refine if_pos ?_
  unfold storedBody
  rw [Option.map_map, suspended]
  simpa using building

theorem followSuspension_unseen {src : Nat} {body : StateBody} {s : State} (k : State)
    (unseen : ¬suspensionSeen src body s) : followSuspension (storedBody s src) body k = k := by
  refine if_neg fun follows => unseen ?_
  unfold storedBody at follows
  rw [Option.map_map] at follows
  simpa [suspensionSeen] using follows

theorem retry_suspendBuild {s : State} (idle : s.build.retry = none) : (suspendBuild s).build.retry = none := by
  have plan := congrArg Build.retry (plan_suspendBuild s)
  refine plan.trans ?_
  split
  · rfl
  · exact idle

theorem state_suspendBuild (s : State) :
    (suspendBuild s).build.state = if s.build.state = .building then .suspended else s.build.state := by
  have plan := congrArg Build.state (plan_suspendBuild s)
  refine plan.trans ?_
  split <;> rfl

theorem withdrawn_suspendBuild {s : State} (in_ : withdrawn s = false) : withdrawn (suspendBuild s) = false := by
  unfold withdrawn at in_ ⊢
  rw [suspendBuild_mode_in (s := s) in_]
  exact in_

/-- Nothing is left to watch once the group is not withdrawn and no retry wait runs. -/
theorem watched_in {y : State} (retry : y.build.retry = none) (in_ : withdrawn y = false) :
    decideRetract (marginWatch (retryAtArrival y)) = decideRetract y := by
  rw [retryAtArrival_none retry, marginWatch_in in_]

/-- The end of the event at a station without ERECTOR, with nothing left to watch. -/
theorem settle_watched {y : State} (running : y.running = true) (absent : y.cfg.roles.erector = false) :
    planOf (settle true (decideRetract y)) = planOf y
      ∧ (settle true (decideRetract y)).records.current.build = y.records.current.build
      ∧ (y.build.state ≠ .ringOpen → y.thrust.mode = .pressing →
          (settle true (decideRetract y)).thrust.mode = .pressing) := by
  have base := base_decideRetract y
  have absent' : (decideRetract y).cfg.roles.erector = false := by rw [cfg_of_base base]; exact absent
  refine ⟨(settle_plan_absent absent').trans (plan_decideRetract y), ?_, fun build pressing => ?_⟩
  · rw [settle_buildPart_absent absent', decideRetract_records]
  · have still : decideRetract y = y := decideRetract_out (by rw [pressing]; exact nofun)
    rw [still, settle_mode_in_build running true absent build (by rw [pressing]; exact nofun), pressing]

end Sys2Proof.Machine
end

section
/-! PROOF. O15: the STATE arrival, its clauses one by one. -/

namespace Sys2Proof.Machine

open Sys2Proof

/-! ### The erector unit stands aside -/

/-- In ERECTOR conflict a transition of the sequence ends in STANDBY (01 R20). -/
theorem seqStep_conflict {s : State} (conflict : s.view.erectorConflict = true) (works : s.erector.seq ≠ .standby) :
    (seqStep s).erector.seq = .standby := by
  unfold seqStep
  split
  case h_1 standby => exact absurd standby works
  case h_2 => rfl
  case h_3 => rw [if_pos (by simp [conflict])]; rfl
  case h_4 w _ _ =>
    rw [if_pos conflict]
    exact (seq_issueStep (a := .release) nofun w (setSeq .standby s)).elim id id
  case h_5 => rw [if_pos conflict]; rfl

theorem standAside_keeps (s : State) : ringOf (standAside s) = ringOf s ∧ BuildFlows False s (standAside s)
    ∧ (s.view.erectorConflict = true → (standAside s).erector.seq = .standby) := by
  unfold standAside
  split
  · next stands =>
    simp only [Bool.and_eq_true, decide_eq_true_eq] at stands
    obtain ⟨conflict, works⟩ := stands
    by_cases waits : s.erector.seq = .awaitingPress
    · have ends : seqStep s = setSeq .standby s := by
        unfold seqStep
        split
        case h_1 standby => exact absurd standby works
        case h_2 => rfl
        case h_3 same _ => exact absurd (waits.symm.trans same) nofun
        case h_4 same _ => exact absurd (waits.symm.trans same) nofun
        case h_5 => exact if_pos conflict
      rw [ends]
      exact ⟨rfl, .same rfl rfl rfl, fun _ => rfl⟩
    · exact ⟨(seqStep_keeps waits).2, buildFlows_seqStep (not_setDue_of_seq waits), fun _ => seqStep_conflict conflict works⟩
  · next rests =>
    refine ⟨rfl, .refl s, fun conflict => ?_⟩
    by_contra works
    exact rests (by simp [conflict, works])

/-! ### What the rules of a STATE leave of the build -/

theorem buildFlows_setTrips (l : List TripPair) (s : State) : BuildFlows False s (setTrips l s) := by
  rw [setTrips_eq]
  split
  · exact (buildFlows_suspendBuild _).after_same rfl rfl rfl
  · exact .same rfl rfl rfl

theorem buildFlows_marginWatch (s : State) : BuildFlows False s (marginWatch s) := by
  unfold marginWatch
  repeat' split
  · exact .same rfl rfl rfl
  · exact buildFlows_abortWithdrawal s
  · refine .same rfl rfl ?_
    change (s.records.current.build.map _).isSome = _
    rw [Option.isSome_map]
  · exact .refl s
  · exact .refl s

theorem buildFlows_retryAtArrival (s : State) : BuildFlows False s (retryAtArrival s) := by
  unfold retryAtArrival
  repeat' split
  all_goals exact .same rfl rfl rfl

theorem buildFlows_stateCatchUp (body : StateBody) (s : State) : BuildFlows False s (stateCatchUp body s) := by
  unfold stateCatchUp
  repeat' split
  · exact buildFlows_catchUp _ s
  · exact buildFlows_raiseMismatch s
  · exact .refl s

theorem seq_stateCatchUp {body : StateBody} {s : State} (standby : s.erector.seq = .standby) :
    (stateCatchUp body s).erector.seq = .standby := by
  unfold stateCatchUp
  repeat' split
  · exact (seq_catchUp _ s).elim (fun same => same.trans standby) id
  · exact standby
  · exact standby

/-- What a STATE's part in the peer view leaves of ring, build and erector unit. -/
theorem stateKnown_keeps (src : Nat) (body : StateBody) (s : State) :
    (stateKnown src body s).records.ring = s.records.ring ∧ (stateKnown src body s).life = s.life
      ∧ BuildFlows False s (stateKnown src body s)
      ∧ ((stateHeard src body s).view.erectorConflict = true → (stateKnown src body s).erector.seq = .standby) := by
  have base := base_conflictEval (base_setTrips (tripsAfter src body s.view.trips) (storeBody src body s))
  obtain ⟨ring, flows, aside⟩ :=
    standAside_keeps (conflictEval (setTrips (tripsAfter src body s.view.trips) (storeBody src body s)))
  have ringSet := ring_setTrips (tripsAfter src body s.view.trips) (storeBody src body s)
  have tripsSet : BuildFlows False s (setTrips (tripsAfter src body s.view.trips) (storeBody src body s)) :=
    (buildFlows_setTrips _ (storeBody src body s)).after_same rfl rfl rfl
  have flowsSet : BuildFlows False s
      (conflictEval (setTrips (tripsAfter src body s.view.trips) (storeBody src body s))) :=
    tripsSet.trans (.same rfl rfl rfl)
  have conflict := congrArg (fun b => b.view.erectorConflict) base
  have left := leaveBlind_eq
    (standAside (conflictEval (setTrips (tripsAfter src body s.view.trips) (storeBody src body s))))
  have life := congrArg Base.life ((base_standAside _).trans base)
  unfold stateKnown
  generalize standAside (conflictEval (setTrips (tripsAfter src body s.view.trips) (storeBody src body s))) = u at *
  obtain ⟨blind, silence, shape⟩ := left
  rw [shape]
  refine ⟨?_, life, (flowsSet.trans flows).trans (.same rfl rfl rfl), fun claims => aside (conflict.trans claims)⟩
  exact (congrArg RingPart.ring ring).trans (congrArg RingPart.ring ringSet)

/-! ### The suspension that is followed -/

section
variable {src : Nat} {body : StateBody} {s : State} (running : s.running = true) (ready : s.life = .ready)
  (small : src < 8) (below : src < s.cfg.n) (foreign : src ≠ s.own) (whole : s.view.peers.length = 8)
  (role : body.roles.erector = true) (lower : s.cfg.roles.erector = true → src < s.own)
  (lowest : (freshPeers s).all (fun p => !p.2.roles.erector || decide (src ≤ p.1)) = true)
  (ring : body.ring = s.records.ring) (goesOn : body.build ≠ .ringOpen ∨ body.ring ≠ 65535)
include ready small foreign whole role lower lowest ring goesOn

/-- The build unit's part of a STATE of the erector station in view on the own ring. -/
theorem stateTaken_same : stateTaken src body s =
    decideRetract (marginWatch (retryAtArrival
      (followSuspension (storedBody s src) body (stateCatchUp body (stateKnown src body s))))) := by
  obtain ⟨same, life, _⟩ := stateKnown_keeps src body s
  unfold stateTaken
  rw [ringArrival_same (life.trans ready)
    (erectorStation_stateHeard small foreign whole role lower lowest (base_stateKnown src body s)) (by rw [same]; exact ring)
    goesOn]

/-- The own build follows the suspension that the erector station in view shows (03 R47). -/
theorem stateTaken_suspended (building : s.build.state = .building) (seen : suspensionSeen src body s) :
    (settle true (stateTaken src body s)).build.state = .suspended := by
  obtain ⟨_, _, flows, aside⟩ := stateKnown_keeps src body s
  have through := flows.trans (buildFlows_stateCatchUp body (stateKnown src body s))
  have builds : (stateCatchUp body (stateKnown src body s)).build.state ≠ .ringOpen :=
    through.not_ringOpen id (by rw [building]; exact nofun)
  have suspended : (suspendBuild (stateCatchUp body (stateKnown src body s))).build.state = .suspended := by
    rw [state_suspendBuild]
    cases state : (stateCatchUp body (stateKnown src body s)).build.state with
    | ringOpen => exact absurd state builds
    | building => rfl
    | suspended => rfl
  have taken := stateTaken_same ready small foreign whole role lower lowest ring goesOn
  rw [followSuspension_seen _ seen] at taken
  have rest : (stateTaken src body s).build.state = .suspended := by
    rw [taken]
    generalize suspendBuild (stateCatchUp body (stateKnown src body s)) = y at suspended
    have after := ((buildFlows_retryAtArrival y).trans (buildFlows_marginWatch _)).trans (buildFlows_decideRetract _)
    rcases after.build with same | ⟨goes, _⟩ | ⟨no, _⟩
    · exact same.trans suspended
    · exact absurd (suspended.symm.trans goes) nofun
    · exact no.elim
  have still : (stateTaken src body s).cfg.roles.erector = false ∨ (stateTaken src body s).erector.seq = .standby := by
    by_cases present : s.cfg.roles.erector = true
    · right
      have standby := aside (stateHeard_conflict small foreign whole role present (lower present))
      have kept : ∀ y : State, (decideRetract (marginWatch (retryAtArrival y))).erector = y.erector := by
        intro y
        rw [erector_decideRetract, erector_marginWatch]
        unfold retryAtArrival
        repeat' split
        all_goals rfl
      rw [taken, kept, erector_suspendBuild]
      exact seq_stateCatchUp standby
    · left
      obtain ⟨blind, silence, shape⟩ := leaveBlind_eq (stateHeard src body s)
      rw [cfg_of_base (base_stateTaken src body s), shape]
      exact Bool.eq_false_iff.2 present
  have plan := (settle_plan_still (lim := true) still (by rw [rest]; exact nofun)).1
  exact (congrArg Build.state plan).trans rest

end

/-! ### A station without ERECTOR -/

theorem cfg_stateTaken (src : Nat) (body : StateBody) (s : State) :
    (stateTaken src body s).cfg = s.cfg ∧ (stateTaken src body s).running = s.running := by
  obtain ⟨blind, silence, shape⟩ := leaveBlind_eq (stateHeard src body s)
  have base := base_stateTaken src body s
  rw [shape] at base
  exact ⟨(cfg_of_base base).trans rfl, (running_of_base base).trans rfl⟩

/-- A build that is followed into suspension is what a suspension makes of it (03 R46, R47). -/
theorem suspendBuild_stateKnown {src : Nat} {body : StateBody} {s : State} (absent : s.cfg.roles.erector = false) :
    ∃ v b, suspendBuild (stateKnown src body s) = { suspendBuild s with view := v, bus := b } := by
  have again : suspendBuild (suspendBuild s) = suspendBuild s := by
    rw [suspendBuild, if_neg (suspendBuild_not_building s)]
  obtain ⟨v, b, ⟨_, shape⟩ | ⟨_, shape⟩⟩ := stateKnown_absent (src := src) (body := body) absent
  · exact ⟨v, b, by rw [shape, suspendBuild_view v b (suspendBuild s), again]⟩
  · exact ⟨v, b, by rw [shape, suspendBuild_view]⟩

theorem figures_of_core {b c : Build} (same : coreOf b = coreOf c) :
    b.entries = c.entries ∧ b.index = c.index ∧ b.planMismatch = c.planMismatch :=
  ⟨congrArg Prod.fst same, congrArg (·.2.1) same, congrArg (·.2.2) same⟩

theorem core_watched (y : State) : coreOf (decideRetract (marginWatch (retryAtArrival y))).build = coreOf y.build := by
  rw [core_of_plan (plan_decideRetract _), core_marginWatch, core_retryAtArrival]

/-- What following the suspension leaves of a group that is not withdrawn and of a build without retry wait. -/
structure Followed (seen : Prop) (c y : State) : Prop where
  core : coreOf y.build = coreOf c.build
  retry : y.build.retry = none
  in_ : withdrawn y = false
  part : y.records.current.build.map BuildPart.caughtUp = c.records.current.build.map BuildPart.caughtUp
  mode : y.thrust.mode = c.thrust.mode
  base : baseOf y = baseOf c
  suspends : seen → c.build.state = .building → y.build.state = .suspended
  keeps : ¬(seen ∧ c.build.state = .building) → y.build.state = c.build.state

theorem followSuspension_keeps {src : Nat} {body : StateBody} {s c : State} (retry : c.build.retry = none)
    (in_ : withdrawn c = false) :
    Followed (suspensionSeen src body s) c (followSuspension (storedBody s src) body c) := by
  by_cases seen : suspensionSeen src body s
  · rw [followSuspension_seen c seen]
    exact ⟨core_suspendBuild c, retry_suspendBuild retry, withdrawn_suspendBuild in_, caughtUp_suspendBuild c,
      suspendBuild_mode_in in_, base_suspendBuild c, fun _ building => by rw [state_suspendBuild, if_pos building],
      fun idle => by rw [state_suspendBuild, if_neg fun building => idle ⟨seen, building⟩]⟩
  · rw [followSuspension_unseen c seen]
    exact ⟨rfl, retry, in_, rfl, rfl, rfl, fun no => absurd no seen, fun _ => rfl⟩

theorem KnownState.pressing {body : StateBody} {s k : State} (h : KnownState body s k) (out : withdrawn s = true)
    (weak : s.inputs.force < s.cfg.pressForce) : (pressIfWithdrawn k).thrust.mode = .pressing := by
  have pressed := pressIfWithdrawn_mode out
  rw [if_neg (Nat.not_le.2 weak)] at pressed
  rcases h.mode with same | already
  · rw [pressIfWithdrawn_mode (by unfold withdrawn; rw [same]; exact out), h.inputs, h.cfg, if_neg (Nat.not_le.2 weak)]
  · have mode := already.trans pressed
    rw [pressIfWithdrawn_kept (by unfold withdrawn; rw [mode]; rfl), mode]

/-- The build state with which a STATE reaches the build unit. -/
theorem KnownState.state {body : StateBody} {s k : State} (h : KnownState body s k) :
    (s.build.state = .building ∧ firstTrip body s ∧ k.build.state = .suspended)
      ∨ (¬(s.build.state = .building ∧ firstTrip body s) ∧ k.build.state = s.build.state) := by
  by_cases first : s.build.state = .building ∧ firstTrip body s
  · have plan := congrArg Build.state (h.suspends first.1 first.2)
    exact .inl ⟨first.1, first.2, plan⟩
  · have plan := congrArg Build.state (h.keeps first)
    exact .inr ⟨first, plan⟩

/-- A build that catches up is suspended by an EMPTY entry, by the first trip in view or by the suspension that is seen
(03 R46, R47, R57). -/
theorem caughtUp_state {body : StateBody} {s k c y : State} {seen : Prop} {x : EntryState} (known : KnownState body s k)
    (caught : c.build.state = if k.build.state = .building ∧ x = .empty then .suspended else k.build.state)
    (follows : Followed seen c y) :
    (s.build.state = .building ∧ (x = .empty ∨ firstTrip body s ∨ seen) → y.build.state = .suspended)
      ∧ (¬(s.build.state = .building ∧ (x = .empty ∨ firstTrip body s ∨ seen)) → y.build.state = s.build.state) := by
  have stays : c.build.state = .suspended → y.build.state = .suspended := fun suspended =>
    (follows.keeps fun h => absurd (suspended.symm.trans h.2) nofun).trans suspended
  rcases known.state with ⟨building, first, suspended⟩ | ⟨later, same⟩
  · rw [suspended, if_neg (by simp)] at caught
    exact ⟨fun _ => stays caught, fun no => absurd ⟨building, .inr (.inl first)⟩ no⟩
  · rw [same] at caught
    constructor
    · rintro ⟨building, cause⟩
      by_cases empty : x = .empty
      · exact stays (caught.trans (if_pos ⟨building, empty⟩))
      · have seen_ := (cause.resolve_left empty).resolve_left fun first => later ⟨building, first⟩
        exact follows.suspends seen_ ((caught.trans (if_neg fun h => empty h.2)).trans building)
    · intro no
      have kept : c.build.state = s.build.state := caught.trans (if_neg fun h => no ⟨h.1, .inl h.2⟩)
      exact (follows.keeps fun h => no ⟨kept.symm.trans h.2, .inr (.inr h.1)⟩).trans kept

theorem core_stateKnown {src : Nat} {body : StateBody} {s : State} (absent : s.cfg.roles.erector = false) :
    coreOf (stateKnown src body s).build = coreOf s.build := by
  obtain ⟨v, b, ⟨_, shape⟩ | ⟨_, shape⟩⟩ := stateKnown_absent (src := src) (body := body) absent
  · rw [shape]
    exact core_suspendBuild s
  · rw [shape]

section
variable {src : Nat} {body : StateBody} {s : State} (ready : s.life = .ready)
  (small : src < 8) (foreign : src ≠ s.own) (whole : s.view.peers.length = 8)
  (role : body.roles.erector = true) (absent : s.cfg.roles.erector = false)
  (lowest : (freshPeers s).all (fun p => !p.2.roles.erector || decide (src ≤ p.1)) = true)
  (ring : body.ring = s.records.ring) (goesOn : body.build ≠ .ringOpen ∨ body.ring ≠ 65535)
include ready small foreign whole role absent lowest ring goesOn

/-- A suspension followed with no index to catch up with (03 R47). -/
theorem suspension_followed (building : s.build.state = .building) (seen : suspensionSeen src body s)
    (behind : body.index ≤ s.build.index) :
    (settle true (stateTaken src body s)).build.index = s.build.index
      ∧ (settle true (stateTaken src body s)).build.entries = s.build.entries
      ∧ (withdrawn s = true → currentEntryState s = some .pending ∨ currentEntryState s = some .empty →
          s.inputs.force < s.cfg.pressForce → (settle true (stateTaken src body s)).thrust.mode = .pressing) := by
  obtain ⟨cfg, alive⟩ := cfg_stateTaken src body s
  have core := core_stateKnown (src := src) (body := body) absent
  have index : (stateKnown src body s).build.index = s.build.index := (Prod.mk.inj (Prod.mk.inj core).2).1
  have caught : stateCatchUp body (stateKnown src body s) = stateKnown src body s := if_neg (by
    rw [index]
    simp [behind])
  have taken := stateTaken_same ready small foreign whole role (fun h => by rw [absent] at h; cases h) lowest ring goesOn
  rw [caught, followSuspension_seen _ seen] at taken
  obtain ⟨v, b, shape⟩ := suspendBuild_stateKnown (src := src) (body := body) absent
  have plan : planOf (suspendBuild (stateKnown src body s)) = { planOf s with state := .suspended, retry := none } := by
    rw [shape]
    exact (plan_suspendBuild s).trans (if_pos building)
  have thrust : (suspendBuild (stateKnown src body s)).thrust = (suspendBuild s).thrust := by rw [shape]
  have base : (suspendBuild (stateKnown src body s)).cfg = s.cfg
      ∧ (suspendBuild (stateKnown src body s)).running = s.running := by
    have cfg := cfg_of_base (base_suspendBuild s)
    have alive := running_of_base (base_suspendBuild s)
    rw [shape]
    exact ⟨cfg, alive⟩
  generalize suspendBuild (stateKnown src body s) = y at taken plan thrust base
  rw [taken] at cfg alive ⊢
  have kept := core_of_plan (settle_plan_absent (lim := true) (by rw [cfg]; exact absent))
  have same : coreOf y.build = coreOf s.build := by
    have core := congrArg coreOf plan
    exact core
  have figures := kept.trans ((core_watched y).trans same)
  obtain ⟨entries, index, _⟩ := figures_of_core figures
  refine ⟨index, entries, fun out entry weak => ?_⟩
  have pressing : y.thrust.mode = .pressing := by rw [thrust]; exact suspendBuild_presses building out entry weak
  rw [watched_in (congrArg Build.retry plan) (by unfold withdrawn; rw [pressing]; rfl)]
  refine (settle_watched (base.2.trans (running_of_ready ready)) (by rw [base.1]; exact absent)).2.2 ?_ pressing
  have state := congrArg Build.state plan
  exact fun open_ => absurd (open_.symm.trans state) nofun

/-- A catch-up to an index of the plan (03 R57). -/
theorem index_caught {e : PlanEntry} (building : s.build.state ≠ .ringOpen) (ahead : s.build.index < body.index)
    (entry : s.build.entries[body.index]? = some e) :
    (settle true (stateTaken src body s)).build.index = body.index
      ∧ (settle true (stateTaken src body s)).build.retry = none
      ∧ (settle true (stateTaken src body s)).build.entries = entriesSet body.index s.build.entries
      ∧ (settle true (stateTaken src body s)).build.planMismatch =
          (s.build.planMismatch || decide (e.state = .empty))
      ∧ ((s.build.state = .building ∧ (e.state = .empty ∨ firstTrip body s ∨ suspensionSeen src body s) →
            (settle true (stateTaken src body s)).build.state = .suspended)
          ∧ (¬(s.build.state = .building ∧ (e.state = .empty ∨ firstTrip body s ∨ suspensionSeen src body s)) →
            (settle true (stateTaken src body s)).build.state = s.build.state))
      ∧ (settle true (stateTaken src body s)).records.current.build.map BuildPart.caughtUp =
          s.records.current.build.map (fun _ => true)
      ∧ (withdrawn s = true → s.inputs.force < s.cfg.pressForce →
          (settle true (stateTaken src body s)).thrust.mode = .pressing) := by
  obtain ⟨cfg, alive⟩ := cfg_stateTaken src body s
  have known := knownState (src := src) (body := body) absent
  obtain ⟨sameEntries, sameIndex, sameMismatch⟩ := figures_of_core (core_stateKnown (src := src) (body := body) absent)
  obtain ⟨_, _, flows, _⟩ := stateKnown_keeps src body s
  have builds := flows.not_ringOpen id building
  have taken := stateTaken_same ready small foreign whole role (fun h => by rw [absent] at h; cases h) lowest ring goesOn
  generalize stateKnown src body s = k at *
  have there : k.build.entries[body.index]? = some e := by rw [sameEntries]; exact entry
  have caught : stateCatchUp body k = catchUp body.index k := by
    obtain ⟨inPlan, _⟩ := List.getElem?_eq_some_iff.1 there
    unfold stateCatchUp
    rw [if_pos (by simp [builds, sameIndex, ahead]), if_pos inPlan]
  rw [caught] at taken
  have plan := plan_catchUp there
  have part := (catchUp_records body.index k).trans known.part
  obtain ⟨mode, in_⟩ := catchUp_mode body.index k
  have core : coreOf (catchUp body.index k).build =
      (entriesSet body.index s.build.entries, body.index, s.build.planMismatch || decide (e.state = .empty)) := by
    have same := congrArg coreOf plan
    rw [← sameEntries, ← sameMismatch]
    exact same
  have retry : (catchUp body.index k).build.retry = none := by
    have same := congrArg Build.retry plan
    exact same
  have state : (catchUp body.index k).build.state =
      if k.build.state = .building ∧ e.state = .empty then .suspended else k.build.state := by
    have same := congrArg Build.state plan
    exact same
  have base := base_catchUp body.index k
  have pressing : withdrawn s = true → s.inputs.force < s.cfg.pressForce → (catchUp body.index k).thrust.mode = .pressing :=
    fun out weak => mode.trans (known.pressing out weak)
  generalize catchUp body.index k = c at taken core retry state in_ part base pressing
  have follows := followSuspension_keeps (src := src) (body := body) (s := s) retry in_
  have alive' : (followSuspension (storedBody s src) body c).running = true := by
    rw [running_of_base (follows.base.trans base)]
    exact (congrArg (fun l => l == .listening || l == .ready) (known.life.trans ready)).trans rfl
  have absent' : (followSuspension (storedBody s src) body c).cfg.roles.erector = false := by
    rw [cfg_of_base (follows.base.trans base), known.cfg]
    exact absent
  generalize followSuspension (storedBody s src) body c = y at *
  rw [taken, watched_in follows.retry follows.in_]
  obtain ⟨atEnd, record, presses⟩ := settle_watched alive' absent'
  obtain ⟨entries, index, mismatch⟩ := figures_of_core (core_of_plan atEnd)
  obtain ⟨core₁, core₂, core₃⟩ := figures_of_core follows.core
  have final : (settle true (decideRetract y)).build.state = y.build.state := by
    have same := congrArg Build.state atEnd
    exact same
  have retry' : (settle true (decideRetract y)).build.retry = none := by
    have same := congrArg Build.retry atEnd
    exact same.trans follows.retry
  obtain ⟨suspends, keeps⟩ := caughtUp_state known state follows
  refine ⟨?_, retry', ?_, ?_, ⟨fun goes => ?_, fun stays => ?_⟩, ?_, fun out weak => ?_⟩
  · rw [index, core₂]
    exact congrArg (·.2.1) core
  · rw [entries, core₁]
    exact congrArg Prod.fst core
  · rw [mismatch, core₃]
    exact congrArg (·.2.2) core
  · exact final.trans (suspends goes)
  · exact final.trans (keeps stays)
  · rw [record, follows.part]
    exact part
  · refine presses ?_ (follows.mode.trans (pressing out weak))
    by_cases goes : s.build.state = .building ∧ (e.state = .empty ∨ firstTrip body s ∨ suspensionSeen src body s)
    · rw [suspends goes]
      exact nofun
    · rw [keeps goes]
      exact building

/-- An index beyond the plan (03 R57). -/
theorem index_beyond (building : s.build.state ≠ .ringOpen) (ahead : s.build.index < body.index)
    (beyond : s.build.entries.length ≤ body.index) :
    (settle true (stateTaken src body s)).build.planMismatch = true
      ∧ (settle true (stateTaken src body s)).build.index = s.build.index
      ∧ (settle true (stateTaken src body s)).build.entries = s.build.entries := by
  obtain ⟨cfg, _⟩ := cfg_stateTaken src body s
  obtain ⟨entries, index, _⟩ := figures_of_core (core_stateKnown (src := src) (body := body) absent)
  obtain ⟨_, _, flows, _⟩ := stateKnown_keeps src body s
  have caught : stateCatchUp body (stateKnown src body s) = raiseMismatch (stateKnown src body s) := by
    unfold stateCatchUp
    rw [if_pos (by simp [flows.not_ringOpen id building, index, ahead]), if_neg (by rw [entries]; omega)]
  have taken := stateTaken_same ready small foreign whole role (fun h => by rw [absent] at h; cases h) lowest ring goesOn
  rw [caught] at taken
  have followed : coreOf (followSuspension (storedBody s src) body (raiseMismatch (stateKnown src body s))).build =
      (s.build.entries, s.build.index, true) := by
    have raised : coreOf (raiseMismatch (stateKnown src body s)).build = (s.build.entries, s.build.index, true) := by
      rw [← entries, ← index]
      rfl
    unfold followSuspension
    split
    · exact (core_suspendBuild _).trans raised
    · exact raised
  have kept := core_of_plan (settle_plan_absent (lim := true) (e := stateTaken src body s) (by rw [cfg]; exact absent))
  have figures : coreOf (settle true (stateTaken src body s)).build = (s.build.entries, s.build.index, true) := by
    rw [kept, taken, core_watched, followed]
  obtain ⟨same, index, mismatch⟩ : _ ∧ _ ∧ _ :=
    ⟨congrArg Prod.fst figures, congrArg (·.2.1) figures, congrArg (·.2.2) figures⟩
  exact ⟨mismatch, index, same⟩

end

/-- Settles O15: the view by the base, the build unit's clauses by its part of a STATE of the erector station in view. -/
theorem stateArrivalKept : Obligations.StateArrivalKept := by
  refine ⟨fun src body s running small below foreign => ?_,
    fun src body x s ready small below foreign whole lower role lowest held was is ring building => ?_,
    fun src body e s ready small below foreign whole absent role lowest ring goesOn building ahead entry => ?_,
    fun src body s ready small below foreign whole absent role lowest ring goesOn building ahead beyond => ?_⟩
  · have base := (base_settle true (stateTaken src body s)).trans (base_stateTaken src body s)
    exact ⟨_, exec_stateArrival running below foreign, stateArrival_view base small foreign⟩
  · have seen : suspensionSeen src body s := ⟨is, by rw [held]; exact congrArg some was⟩
    have goesOn : body.build ≠ .ringOpen ∨ body.ring ≠ 65535 := .inl (by rw [is]; exact nofun)
    refine ⟨_, exec_stateArrival (running_of_ready ready) below foreign,
      stateTaken_suspended ready small foreign whole role lower lowest ring goesOn building seen, fun absent behind => ?_⟩
    obtain ⟨index, entries, pressed⟩ :=
      suspension_followed ready small foreign whole role absent lowest ring goesOn building seen behind
    exact ⟨index, entries, fun out _ entry weak => pressed out entry weak⟩
  · obtain ⟨index, retry, entries, mismatch, ⟨suspends, keeps⟩, part, pressed⟩ :=
      index_caught ready small foreign whole role absent lowest ring goesOn building ahead entry
    refine ⟨_, exec_stateArrival (running_of_ready ready) below foreign, index, retry, entries, mismatch, ?_, part, pressed⟩
    split
    · next cause => exact suspends cause
    · next none => exact keeps none
  · exact ⟨_, exec_stateArrival (running_of_ready ready) below foreign,
      index_beyond ready small foreign whole role absent lowest ring goesOn building ahead beyond⟩

end Sys2Proof.Machine
end

section
/-! PROOF. What a ring close stores and what it leaves: the closed record (09 R144), the units on the new ring (08 R125, 03
R61), and the station as the event of a close ends. -/

namespace Sys2Proof.Machine

open Sys2Proof

/-! ### The closed record -/

/-- The current record with its final figures, as a close stores it (09 R144). -/
def closedRecord (x : State) : Record :=
  (syncRecord (fixEntriesSet (groutTotals (accountSpoil (updateRingAdvance x))))).records.current

/-- The station with the machine advance updated once more (01 R11, 09 R144). -/
def advanceUpdated (x : State) : State := { x with view := { x.view with lring := max x.view.lring (ringMean x) } }

section
variable {x t : State}

theorem closingAdvance_eq (peers : freshPeers t = freshPeers x) :
    closingAdvance x t = max x.view.lring (ringMean x) := by
  unfold closingAdvance closingPeers ringMean
  rw [peers]

theorem closedRecord_eq : closedRecord x =
    (syncRecord (fixEntriesSet (groutTotals (accountSpoil (advanceUpdated x))))).records.current := by
  unfold closedRecord
  rw [updateRingAdvance_eq]
  rfl

theorem closedRecord_base :
    (closedRecord x).ring = x.records.current.ring ∧ (closedRecord x).ownAdvance = x.thrust.advance
      ∧ (closedRecord x).machineAdvance = max x.view.lring (ringMean x)
      ∧ (closedRecord x).build = x.records.current.build.map (fun b =>
          { b with entriesSet := (x.build.entries.filter (fun e => e.state = .set)).length }) := by
  rw [closedRecord_eq]
  exact ⟨rfl, rfl, rfl, rfl⟩

theorem closedRecord_spoil (peers : freshPeers t = freshPeers x) :
    (closedRecord x).spoil = x.records.current.spoil.map (closedSpoil x t) := by
  have updated : (closedRecord x).spoil = x.records.current.spoil.map (accountPart (advanceUpdated x)) := by
    rw [closedRecord_eq]
    rfl
  rw [updated]
  refine congrArg (fun f => x.records.current.spoil.map f) (funext fun p => ?_)
  obtain ⟨above, below⟩ := accountPart_judged (advanceUpdated x) p
  have whole : accountPart (advanceUpdated x) p =
      { accountPart (advanceUpdated x) p with
        isOver := (accountPart (advanceUpdated x) p).isOver
        isUnder := (accountPart (advanceUpdated x) p).isUnder } := rfl
  rw [whole, above, below]
  unfold closedSpoil
  rw [closingAdvance_eq peers]
  rfl

theorem closedRecord_grout (peers : freshPeers t = freshPeers x) :
    (closedRecord x).grout = x.records.current.grout.map (closedGrout x t) := by
  rw [closedRecord_eq]
  refine (Option.map_map _ _ _).trans ?_
  refine congrArg (fun f => x.records.current.grout.map f) (funext fun g => ?_)
  have advance : (accountSpoil (advanceUpdated x)).view.lring = closingAdvance x t := (closingAdvance_eq peers).symm
  have fresh : freshPeers (accountSpoil (advanceUpdated x)) = freshPeers t := peers.symm
  unfold closedGrout closingPeers
  dsimp only [Function.comp]
  rw [advance, fresh]
  by_cases empty : closingAdvance x t = 0
  · simp only [empty, if_true]
    rfl
  · simp only [empty, if_false]
    rfl

/-- A close below ring 65,535 stores its record as the newest of at most 16 (09 R144, R146). -/
theorem storedAtClose (history : t.records.history = appendHistory x.records.history (closedRecord x))
    (peers : freshPeers t = freshPeers x) : StoredAtClose x t := by
  obtain ⟨ring, own, machine, _⟩ := closedRecord_base (x := x)
  have newest : t.records.history.getLast? = some (closedRecord x) := by
    rw [history]
    unfold appendHistory
    split
    · exact List.getLast?_concat
    · exact List.getLast?_concat
  unfold StoredAtClose
  rw [newest, history, closingAdvance_eq peers]
  refine ⟨?_, congrArg some ring, congrArg some own, congrArg some machine,
    congrArg some (closedRecord_spoil peers), congrArg some (closedRecord_grout peers)⟩
  unfold appendHistory
  split
  · simp; omega
  · simp; omega

end

/-! ### The units on the new ring -/

/-- The station on the new ring, before its units are evaluated (09 R144, 08 R125, 03 R61). -/
def onNewRing (r : Nat) (c : OpeningCause) (x : State) : State :=
  judgeOver false (openUnits (groutSettingsAtClose (storeAndOpen r c
    (syncRecord (fixEntriesSet (groutTotals (accountSpoil (updateRingAdvance x))))))))

section
variable {r : Nat} {c : OpeningCause} {x : State}

theorem closeRing_onNewRing :
    closeRing r c x = judgeLinePressure (injectionEval (unitsEval false (onNewRing r c x))) := rfl

theorem onNewRing_records : (onNewRing r c x).records =
    { ring := r, current := Record.fresh x.cfg.roles r c
      history := if x.records.ring = 65535 then [] else appendHistory x.records.history (closedRecord x)
      limits := x.records.waitingLimits.getD x.records.limits, waitingLimits := none } := by
  rw [closedRecord_eq]
  unfold onNewRing
  rw [updateRingAdvance_eq]
  rfl

theorem onNewRing_units : (onNewRing r c x).thrust = { x.thrust with advance := 0 }
      ∧ (onNewRing r c x).view = { x.view with lring := 0 }
      ∧ (onNewRing r c x).drive = { x.drive with accumulator := 0, peakTorque := 0 }
      ∧ (onNewRing r c x).screw = { x.screw with sample := 0 }
      ∧ (onNewRing r c x).train.reasons.isOver = false
      ∧ (onNewRing r c x).build =
          { x.build with
            state := .ringOpen, entries := [], planRing := 0, index := 0, retry := none, planMismatch := false
            marginLow := false }
      ∧ (onNewRing r c x).grout =
          { x.grout with
            strokes := 0, volume := 0, sample := 0, waiting := none
            active := x.grout.waiting.getD x.grout.active
            tail := if x.grout.active.closes < x.grout.active.opens then some x.grout.active.closes else none } := by
  unfold onNewRing
  rw [updateRingAdvance_eq]
  exact ⟨rfl, rfl, rfl, rfl, rfl, rfl, rfl⟩

theorem ring_judgeLinePressure (s : State) : ringOf (judgeLinePressure s) = ringOf s := by
  unfold judgeLinePressure
  split <;> rfl

theorem judgeLinePressure_kept (s : State) : (judgeLinePressure s).thrust = s.thrust
      ∧ (judgeLinePressure s).build = s.build ∧ (judgeLinePressure s).grout.tail = s.grout.tail
      ∧ (judgeLinePressure s).records.current.ring = s.records.current.ring
      ∧ (judgeLinePressure s).view = s.view := by
  unfold judgeLinePressure
  split <;> exact ⟨rfl, rfl, rfl, rfl, rfl⟩

/-- A close leaves the figures of the ring as the open of the next gives them. -/
theorem ring_closeRing : ringOf (closeRing r c x) = ringOf (onNewRing r c x) := by
  rw [closeRing_onNewRing, ring_judgeLinePressure, ring_injectionEval, ring_unitsEval]

theorem closeRing_build : (closeRing r c x).build = (onNewRing r c x).build := by
  obtain ⟨_, _, _, _, _, build, _⟩ := onNewRing_units (r := r) (c := c) (x := x)
  obtain ⟨_, kept, _⟩ := judgeLinePressure_kept (injectionEval (unitsEval false (onNewRing r c x)))
  rw [closeRing_onNewRing, kept, injectionEval_build, unitsEval_build false (by rw [build])]

theorem closeRing_currentRing : (closeRing r c x).records.current.ring = r := by
  obtain ⟨_, _, _, kept, _⟩ := judgeLinePressure_kept (injectionEval (unitsEval false (onNewRing r c x)))
  have opened : (onNewRing r c x).records.current.ring = r := by rw [onNewRing_records]; rfl
  rw [closeRing_onNewRing, kept, injectionEval_records]
  rcases unitsEval_records false (onNewRing r c x) with same | flagged
  · rw [same, opened]
  · rw [flagged]
    exact opened

/-- A close withdraws no group (03 R61). -/
theorem withdrawn_closeRing (in_ : withdrawn x = false) : withdrawn (closeRing r c x) = false := by
  obtain ⟨thrust, _⟩ := judgeLinePressure_kept (injectionEval (unitsEval false (onNewRing r c x)))
  have opened : (onNewRing r c x).thrust.mode = x.thrust.mode := by
    rw [(onNewRing_units (r := r) (c := c) (x := x)).1]
  unfold withdrawn at in_ ⊢
  rw [closeRing_onNewRing, thrust, injectionEval_thrust]
  rcases unitsEval_mode_cases false (onNewRing r c x) with same | ⟨_, hold | advance⟩
  · rw [same, opened]; exact in_
  · rw [hold]; rfl
  · rw [advance]; rfl

/-- The carried tail that the window of the closing ring leaves to the next: none that is reached at advance 0 (08 R124,
R125). -/
def tailCarried (g : GroutSet) : Option Nat := if g.closes < g.opens ∧ 0 < g.closes then some g.closes else none

/-- Only a carried tail that is not yet reached stays (08 R124). -/
theorem injectionEval_tail (s : State) :
    (injectionEval s).grout.tail = s.grout.tail.filter (fun p => decide (s.thrust.advance < p)) := by
  have judged : (tailEval s).grout.tail = s.grout.tail.filter (fun p => decide (s.thrust.advance < p)) := by
    unfold tailEval
    split
    · next p tail =>
      split
      · next reached => simp [tail, Option.filter_some, Nat.not_lt.2 reached]
      · next ahead => simp [tail, Option.filter_some, Nat.lt_of_not_le ahead]
    · next untailed => simp [untailed]
  rw [← judged]
  unfold injectionEval
  dsimp only
  repeat' split
  all_goals rfl

theorem closeRing_tail : (closeRing r c x).grout.tail = tailCarried x.grout.active := by
  obtain ⟨_, _, kept, _⟩ := judgeLinePressure_kept (injectionEval (unitsEval false (onNewRing r c x)))
  obtain ⟨thrust, _, _, _, _, _, grout⟩ := onNewRing_units (r := r) (c := c) (x := x)
  have advance : (unitsEval false (onNewRing r c x)).thrust.advance = 0 := by
    have same : (unitsEval false (onNewRing r c x)).thrust.advance = (onNewRing r c x).thrust.advance :=
      congrArg RingPart.advance (ring_unitsEval false (onNewRing r c x))
    rw [same, thrust]
  rw [closeRing_onNewRing, kept, injectionEval_tail, unitsEval_grout, advance, grout]
  unfold tailCarried
  by_cases crosses : x.grout.active.closes < x.grout.active.opens
  · simp only [crosses, if_true, true_and, Option.filter_some, decide_eq_true_eq]
  · simp [crosses]

end

/-! ### The end of an event in OPEN -/

section
variable {lim : Bool} {e : State} (ringOpen : e.build.state = .ringOpen)
include ringOpen

theorem erector_shape_worked : ∃ x b,
    erectorEval (unitsEval lim e) = { unitsEval lim e with erector := x, bus := b } :=
  erectorEval_shape_ringOpen (by rw [unitsEval_build_state]; exact ringOpen)

theorem grout_unitsAtEnd_ringOpen : (unitsAtEnd lim e).grout = e.grout := by
  obtain ⟨x, b, shape⟩ := erector_shape_worked (lim := lim) ringOpen
  unfold unitsAtEnd
  rw [unitsEval_grout, shape]
  exact unitsEval_grout lim e

theorem advance_unitsAtEnd_ringOpen : (unitsAtEnd lim e).thrust.advance = e.thrust.advance := by
  obtain ⟨x, b, shape⟩ := erector_shape_worked (lim := lim) ringOpen
  have same : (unitsAtEnd lim e).thrust.advance = (erectorEval (unitsEval lim e)).thrust.advance :=
    congrArg RingPart.advance (ring_unitsEval lim _)
  rw [same, shape]
  exact congrArg RingPart.advance (ring_unitsEval lim e)

theorem settle_tail_ringOpen (running : e.running = true) :
    (settle lim e).grout.tail = e.grout.tail.filter (fun p => decide (e.thrust.advance < p)) := by
  rw [settle_grout running, injectionEval_tail, grout_unitsAtEnd_ringOpen ringOpen, advance_unitsAtEnd_ringOpen ringOpen]

theorem settle_currentRing_ringOpen : (settle lim e).records.current.ring = e.records.current.ring := by
  have units : ∀ u, (unitsEval lim u).records.current.ring = u.records.current.ring := by
    intro u
    rcases unitsEval_records lim u with same | flagged
    · rw [same]
    · rw [flagged]
      rfl
  obtain ⟨x, b, shape⟩ := erector_shape_worked (lim := lim) ringOpen
  unfold settle
  split
  · change (injectionEval (unitsAtEnd lim e)).records.current.ring = _
    rw [injectionEval_records]
    refine (units _).trans ?_
    rw [shape]
    exact units e
  · rfl

/-- A group that is not withdrawn is not as an event in OPEN ends. -/
theorem settle_in_ringOpen (running : e.running = true) (in_ : withdrawn e = false) :
    withdrawn (settle lim e) = false := by
  unfold withdrawn at in_ ⊢
  rcases settle_mode_ringOpen running lim ringOpen with same | ⟨_, hold | advance⟩
  · rw [same]; exact in_
  · rw [hold]; rfl
  · rw [advance]; rfl

end

/-! ### The end of the event that closes a ring -/

/-- The station on the ring that a close has opened, its figures back at their start and the pending settings active
(09 R144, R143; 03 R61; 08 R125; 02 R23; 01 R11; 05 R91). -/
structure RingOpened (r : Nat) (c : OpeningCause) (x t : State) : Prop where
  ring : t.records.ring = r
  currentRing : t.records.current.ring = r
  cause : t.records.current.cause = c
  history : t.records.history =
    if x.records.ring = 65535 then [] else appendHistory x.records.history (closedRecord x)
  advance : t.thrust.advance = 0
  lring : t.view.lring = 0
  accumulator : t.drive.accumulator = 0
  peakTorque : t.drive.peakTorque = 0
  screwSample : t.screw.sample = 0
  strokes : t.grout.strokes = 0
  volume : t.grout.volume = 0
  groutSample : t.grout.sample = 0
  active : t.grout.active = x.grout.waiting.getD x.grout.active
  waiting : t.grout.waiting = none
  tail : t.grout.tail = tailCarried x.grout.active
  limits : t.records.limits = x.records.waitingLimits.getD x.records.limits
  waitingLimits : t.records.waitingLimits = none
  isOver : t.train.reasons.isOver = false
  state : t.build.state = .ringOpen
  entries : t.build.entries = []
  index : t.build.index = 0
  retry : t.build.retry = none
  mismatch : t.build.planMismatch = false
  marginLow : t.build.marginLow = false
  inside : withdrawn x = false → withdrawn t = false
  base : baseOf t = baseOf x

section
variable {lim : Bool} {r : Nat} {c : OpeningCause} {x : State}

theorem ringOpened_end (running : x.running = true) : RingOpened r c x (settle lim (closeRing r c x)) := by
  obtain ⟨thrust, view, drive, screw, over_, build, grout⟩ := onNewRing_units (r := r) (c := c) (x := x)
  have base : baseOf (closeRing r c x) = baseOf x := base_closeRing r c x
  have runs : (closeRing r c x).running = true := by
    have life : (closeRing r c x).life = x.life := congrArg Base.life base
    unfold State.running at running ⊢
    rw [life]
    exact running
  have built : (closeRing r c x).build = (onNewRing r c x).build := closeRing_build
  rw [build] at built
  have ringOpen : (closeRing r c x).build.state = .ringOpen := by rw [built]
  have low : (closeRing r c x).build.marginLow = false := by rw [built]
  obtain ⟨kept, ring, _⟩ := settle_ringOpen lim ringOpen low
  rw [built] at kept
  rw [ring_closeRing] at ring
  have figure : ∀ {α : Type} (f : RingPart → α), f (ringOf (settle lim (closeRing r c x))) = f (ringOf (onNewRing r c x)) :=
    fun f => congrArg f ring
  have records := onNewRing_records (r := r) (c := c) (x := x)
  have advance : (closeRing r c x).thrust.advance = 0 :=
    (congrArg RingPart.advance ring_closeRing).trans (congrArg Thrust.advance thrust)
  exact
    { ring := (figure RingPart.ring).trans (congrArg Records.ring records)
      currentRing := (settle_currentRing_ringOpen ringOpen).trans closeRing_currentRing
      cause := (figure RingPart.cause).trans (congrArg (fun q => q.current.cause) records)
      history := (figure RingPart.history).trans (congrArg Records.history records)
      advance := (figure RingPart.advance).trans (congrArg Thrust.advance thrust)
      lring := (figure RingPart.lring).trans (congrArg View.lring view)
      accumulator := (figure RingPart.accumulator).trans (congrArg Drive.accumulator drive)
      peakTorque := (figure RingPart.peakTorque).trans (congrArg Drive.peakTorque drive)
      screwSample := (figure RingPart.screwSample).trans (congrArg Screw.sample screw)
      strokes := (figure RingPart.strokes).trans (congrArg Grout.strokes grout)
      volume := (figure RingPart.volume).trans (congrArg Grout.volume grout)
      groutSample := (figure RingPart.groutSample).trans (congrArg Grout.sample grout)
      active := (figure RingPart.active).trans (congrArg Grout.active grout)
      waiting := (figure RingPart.waiting).trans (congrArg Grout.waiting grout)
      tail := by
        rw [settle_tail_ringOpen ringOpen runs, closeRing_tail, advance]
        unfold tailCarried
        split
        · next ahead => simp [Option.filter_some, ahead.2]
        · rfl
      limits := (figure RingPart.limits).trans (congrArg Records.limits records)
      waitingLimits := (figure RingPart.waitingLimits).trans (congrArg Records.waitingLimits records)
      isOver := (figure RingPart.isOver).trans over_
      state := congrArg Build.state kept
      entries := congrArg Build.entries kept
      index := congrArg Build.index kept
      retry := congrArg Build.retry kept
      mismatch := congrArg Build.planMismatch kept
      marginLow := congrArg Build.marginLow kept
      inside := fun in_ => settle_in_ringOpen ringOpen runs (withdrawn_closeRing in_)
      base := (settle_frame lim _).1.trans base }

end

end Sys2Proof.Machine
end

section
/-! PROOF. O25: the SET of the KEY closes the ring. -/

namespace Sys2Proof.Machine

open Sys2Proof

/-! ### A STEP arrival -/

theorem exec_stepArrival {src : Nat} (a : StepAction) (ring index : Nat) {s : State} (ready : s.life = .ready)
    (below : src < s.cfg.n) (foreign : src ≠ s.own) :
    exec (.stepArrival src a ring index) s = .next (settle false (takeStep a ring index s)) := by
  have taken : (s.life = .ready && takenSource s src) = true := by simp [takenSource, ready, below, foreign]
  have arrives : stepArrival src a ring index s = settle false (takeStep a ring index s) := by
    unfold stepArrival
    rw [if_neg foreign, if_pos taken]
  exact congrArg Host.Outcome.next arrives

/-! ### The entries set -/

theorem entriesSet_count {j : Nat} {l : List PlanEntry} (there : j ≤ l.length) :
    ((entriesSet j l).filter (fun e => e.state = .set)).length =
      j + ((l.drop j).filter (fun e => e.state = .set)).length := by
  have below : ((l.take j).map (fun p : PlanEntry => { p with state := .set })).filter (fun e => e.state = .set) =
      (l.take j).map (fun p : PlanEntry => { p with state := .set }) := by
    rw [List.filter_eq_self]
    intro p mem
    obtain ⟨q, _, rfl⟩ := List.mem_map.1 mem
    rfl
  unfold entriesSet
  rw [List.filter_append, below, List.length_append, List.length_map, List.length_take, Nat.min_eq_left there]

/-! ### What the SET of the KEY closes the ring with -/

/-- The station as it closes its ring at the SET of the KEY: the entry SET, the sequence stood down and the group pressed
(03 R60, R61; 04 R73, R74). -/
def keySet (y : State) : State := pressIfWithdrawn (sequencePassed (moveIndex (y.build.index + 1) y))

section
variable {y : State}

theorem keySet_kept : ringOf (keySet y) = ringOf y ∧ baseOf (keySet y) = baseOf y ∧ (keySet y).records = y.records
      ∧ (keySet y).view = y.view ∧ (keySet y).grout = y.grout ∧ (keySet y).cfg = y.cfg
      ∧ (keySet y).build.entries = entriesSet (y.build.index + 1) y.build.entries ∧ withdrawn (keySet y) = false := by
  have rest : restOf (keySet y) = restOf y := by
    unfold keySet
    rw [rest_pressIfWithdrawn]
    rcases sequencePassed_cases (moveIndex (y.build.index + 1) y) with e | ⟨_, _, _, _, e⟩
    · rw [e]; rfl
    · rw [e]; rfl
  have records : (keySet y).records = y.records := by
    unfold keySet
    rw [pressIfWithdrawn_records]
    rcases sequencePassed_cases (moveIndex (y.build.index + 1) y) with e | ⟨_, _, _, _, e⟩
    · rw [e]; rfl
    · rw [e]; rfl
  have entries : (keySet y).build.entries = entriesSet (y.build.index + 1) y.build.entries := by
    have plan := congrArg Build.entries (plan_pressIfWithdrawn (sequencePassed (moveIndex (y.build.index + 1) y)))
    refine plan.trans ?_
    rcases sequencePassed_cases (moveIndex (y.build.index + 1) y) with e | ⟨_, _, _, _, e⟩
    · rw [e]; rfl
    · rw [e]; rfl
  refine ⟨?_, ?_, records, view_of_rest rest, grout_of_rest rest, cfg_of_rest rest, entries, withdrawn_pressIfWithdrawn _⟩
  · unfold keySet
    rw [ring_pressIfWithdrawn, ring_sequencePassed, ring_moveIndex]
  · unfold keySet
    rw [base_pressIfWithdrawn, base_sequencePassed]
    rfl

theorem applyAction_key {e : PlanEntry} (entry : y.build.entries[y.build.index]? = some e) (key : e.key = true) :
    applyAction .set y = closeRing (nextRing y.records.ring) .close (keySet y) := by
  unfold applyAction planAt
  rw [entry]
  exact if_pos key

/-- In OPEN there is no retraction decision (03 R52). -/
theorem decideRetract_ringOpen {s : State} (ringOpen : s.build.state = .ringOpen) : decideRetract s = s := by
  rcases decideRetract_cases s with same | ⟨building, _⟩
  · exact same
  · simp [ringOpen] at building

/-- The event of the SET of the KEY ends on the next ring (03 R60, R61). -/
theorem keySet_end {e : PlanEntry} (running : y.running = true) (entry : y.build.entries[y.build.index]? = some e)
    (key : e.key = true) :
    RingOpened (nextRing y.records.ring) .close (keySet y) (settle false (decideRetract (applyAction .set y))) := by
  have runs : (keySet y).running = true := by
    have life : (keySet y).life = y.life := congrArg Base.life keySet_kept.2.1
    unfold State.running at running ⊢
    rw [life]
    exact running
  have ringOpen : (closeRing (nextRing y.records.ring) .close (keySet y)).build.state = .ringOpen := by
    rw [closeRing_build, (onNewRing_units).2.2.2.2.2.1]
  rw [applyAction_key entry key, decideRetract_ringOpen ringOpen]
  exact ringOpened_end runs

/-- The newest record of the history, after a close below ring 65,535. -/
theorem RingOpened.newest {r : Nat} {c : OpeningCause} {x t : State} (h : RingOpened r c x t)
    (below : x.records.ring ≠ 65535) : t.records.history.getLast? = some (closedRecord x) := by
  rw [h.history, if_neg below]
  unfold appendHistory
  split
  · exact List.getLast?_concat
  · exact List.getLast?_concat

/-- The build part that the close stores (09 R144). -/
theorem RingOpened.built {r : Nat} {c : OpeningCause} {x t : State} {α : Type} (f : BuildPart → α)
    (h : RingOpened r c x t) (below : x.records.ring ≠ 65535) :
    (t.records.history.getLast?).bind (fun q => q.build.map f) =
      x.records.current.build.map (fun b => f
        { b with entriesSet := (x.build.entries.filter (fun e => e.state = .set)).length }) := by
  obtain ⟨_, _, _, build⟩ := closedRecord_base (x := x)
  rw [h.newest below]
  change (closedRecord x).build.map f = _
  rw [build, Option.map_map]
  rfl

/-- Of the station that closes its ring the stored record takes the figures of the ring and the current record's parts. -/
theorem StoredAtClose.congr {s x t : State} (h : StoredAtClose x t) (ring : ringOf x = ringOf s) (cfg : x.cfg = s.cfg)
    (currentRing : x.records.current.ring = s.records.current.ring)
    (spoil : x.records.current.spoil = s.records.current.spoil)
    (grout : x.records.current.grout = s.records.current.grout) : StoredAtClose s t := by
  have r : x.records.ring = s.records.ring := congrArg RingPart.ring ring
  have history : x.records.history = s.records.history := congrArg RingPart.history ring
  have limits : x.records.limits = s.records.limits := congrArg RingPart.limits ring
  have advance : x.thrust.advance = s.thrust.advance := congrArg RingPart.advance ring
  have lring : x.view.lring = s.view.lring := congrArg RingPart.lring ring
  have strokes : x.grout.strokes = s.grout.strokes := congrArg RingPart.strokes ring
  have volume : x.grout.volume = s.grout.volume := congrArg RingPart.volume ring
  have active : x.grout.active = s.grout.active := congrArg RingPart.active ring
  have peers : closingPeers x t = closingPeers s t := by unfold closingPeers; rw [r]
  have closing : closingAdvance x t = closingAdvance s t := by unfold closingAdvance; rw [lring, advance, peers]
  have spoilPart : closedSpoil x t = closedSpoil s t := by
    funext p
    unfold closedSpoil
    rw [closing, cfg, limits]
  have groutPart : closedGrout x t = closedGrout s t := by
    funext g
    unfold closedGrout
    rw [closing, cfg, peers, strokes, volume, active]
  unfold StoredAtClose at h ⊢
  rw [history, currentRing, advance, closing, spoil, grout, spoilPart, groutPart] at h
  exact h

end

/-- Settles O25: the ring opened, with the figures and counts of the record that the close stores. -/
theorem keySetClosesRing : Obligations.KeySetClosesRing := by
  intro src e s ready below foreign build entry key
  obtain ⟨ring, base, records, view, grout, cfg, entries, inside⟩ := keySet_kept (y := s)
  obtain ⟨there, _⟩ := List.getElem?_eq_some_iff.1 entry
  have step : takeStep .set s.records.ring s.build.index s = decideRetract (applyAction .set s) := by
    unfold takeStep judgeStep
    rw [if_neg build, if_neg (Nat.lt_irrefl _), if_neg (fun h => h rfl), if_neg (Nat.not_le.2 there),
      if_neg (Nat.lt_irrefl _), if_pos rfl]
  have opened := keySet_end (running_of_ready ready) entry key
  rw [← step] at opened
  have number : (if s.records.ring = 65535 then 65535 else s.records.ring + 1) = nextRing s.records.ring := by
    unfold nextRing
    split
    · next last => exact last.symm
    · rfl
  refine ⟨_, exec_stepArrival .set _ _ ready below foreign, ?_⟩
  generalize settle false (takeStep .set s.records.ring s.build.index s) = t at opened
  have peers : freshPeers t = freshPeers (keySet s) := freshPeers_of_base opened.base
  rw [number]
  refine ⟨opened.ring, opened.currentRing.trans opened.ring.symm, opened.cause, fun last => ?_, fun inner => ?_,
    opened.advance,
    opened.lring, opened.accumulator, opened.peakTorque, opened.screwSample, opened.strokes, opened.volume,
    opened.groutSample, by rw [opened.active, grout], opened.waiting, by rw [opened.tail, grout]; rfl,
    by rw [opened.limits, records], opened.waitingLimits, opened.isOver, opened.state, opened.entries, opened.index,
    opened.retry, opened.mismatch, opened.marginLow, opened.inside inside, opened.base.trans base⟩
  · rw [opened.history, if_pos (by rw [records]; exact last)]
  · have before : (keySet s).records.ring ≠ 65535 := by rw [records]; exact inner
    have stored : StoredAtClose (keySet s) t :=
      storedAtClose (by rw [opened.history, if_neg before]) peers
    have counted := opened.built BuildPart.entriesSet before
    rw [entries, entriesSet_count there, records] at counted
    refine ⟨stored.congr ring cfg (by rw [records]) (by rw [records]) (by rw [records]), ?_, counted⟩
    have lring : (keySet s).view.lring = s.view.lring := by rw [view]
    have mean : ringMean (keySet s) = ringMean s := by
      have advance : (keySet s).thrust.advance = s.thrust.advance := congrArg RingPart.advance ring
      unfold ringMean
      rw [advance, records, freshPeers_of_base base]
    rw [opened.newest before, ← lring, ← mean]
    exact congrArg some closedRecord_base.2.2.1

end Sys2Proof.Machine
end

section
/-! PROOF. O26: a higher ring heard is adopted. -/

namespace Sys2Proof.Machine

open Sys2Proof

/-! ### What a STATE leaves of the ring before the build unit takes it -/

/-- A station with its peer view left out too. -/
def unseen (s : State) : State := { restOf s with view := State.reset.view }

theorem unseen_of_rest {s t : State} (h : restOf t = restOf s) : unseen t = unseen s :=
  congrArg (fun u : State => { u with view := State.reset.view }) h

theorem unseen_setTrips (l : List TripPair) (s : State) : unseen (setTrips l s) = unseen s := by
  rw [setTrips_eq]
  split
  · exact unseen_of_rest (s := withTrips l s) (rest_suspendBuild (withTrips l s))
  · rfl

/-- An erector unit that stands aside sends RELEASE alone, which reaches the build unit only (01 R20). -/
theorem rest_standAside (s : State) : restOf (standAside s) = restOf s := by
  unfold standAside
  split
  · next stands =>
    simp only [Bool.and_eq_true, decide_eq_true_eq] at stands
    obtain ⟨conflict, works⟩ := stands
    unfold seqStep
    split
    case h_1 standby => exact absurd standby works
    case h_2 => rfl
    case h_3 => rw [if_pos (by simp [conflict])]; rfl
    case h_4 w _ _ =>
      rw [if_pos conflict]
      exact rest_issueStep (by simp) w (setSeq .standby s)
    case h_5 => rw [if_pos conflict]; rfl
  · rfl

section
variable (src : Nat) (body : StateBody) (s : State)

theorem unseen_stateKnown : unseen (stateKnown src body s) = unseen s := by
  have set := unseen_setTrips (tripsAfter src body s.view.trips) (storeBody src body s)
  have aside := unseen_of_rest
    (rest_standAside (conflictEval (setTrips (tripsAfter src body s.view.trips) (storeBody src body s))))
  have left := leaveBlind_eq
    (standAside (conflictEval (setTrips (tripsAfter src body s.view.trips) (storeBody src body s))))
  unfold stateKnown
  generalize standAside (conflictEval (setTrips (tripsAfter src body s.view.trips) (storeBody src body s))) = u at *
  obtain ⟨blind, silence, shape⟩ := left
  rw [shape]
  exact aside.trans set

theorem stateKnown_ring : ringOf (stateKnown src body s) = ringOf s := by
  have set := ring_setTrips (tripsAfter src body s.view.trips) (storeBody src body s)
  obtain ⟨aside, _⟩ :=
    standAside_keeps (conflictEval (setTrips (tripsAfter src body s.view.trips) (storeBody src body s)))
  have left := leaveBlind_eq
    (standAside (conflictEval (setTrips (tripsAfter src body s.view.trips) (storeBody src body s))))
  unfold stateKnown
  generalize standAside (conflictEval (setTrips (tripsAfter src body s.view.trips) (storeBody src body s))) = u at *
  obtain ⟨blind, silence, shape⟩ := left
  rw [shape]
  exact aside.trans set

theorem stateKnown_figures : (stateKnown src body s).cfg = s.cfg ∧ (stateKnown src body s).grout = s.grout
      ∧ (stateKnown src body s).records.current.ring = s.records.current.ring
      ∧ (stateKnown src body s).records.current.spoil = s.records.current.spoil
      ∧ (stateKnown src body s).records.current.grout = s.records.current.grout := by
  have same := unseen_stateKnown src body s
  have records : ∀ {α : Type} (f : Record → α), f (unseen (stateKnown src body s)).records.current =
      f (unseen s).records.current := fun f => congrArg (fun u : State => f u.records.current) same
  have cfg := congrArg State.cfg same
  have grout := congrArg State.grout same
  exact ⟨cfg, grout, records Record.ring, records Record.spoil, records Record.grout⟩

end

/-! ### The station that closes its ring for a higher one -/

/-- The station as it closes its ring at an adoption: in a build flagged CAUGHT UP, its group pressed (03 R62). -/
def adopting (k : State) : State :=
  if k.build.state = .ringOpen then k
  else pressIfWithdrawn (onBuildPart (fun b => { b with caughtUp := true }) k)

section
variable {k : State}

theorem adoptRing_eq (r : Nat) : adoptRing r k = closeRing r .adopted (adopting k) := rfl

theorem adopting_kept : ringOf (adopting k) = ringOf k ∧ baseOf (adopting k) = baseOf k ∧ (adopting k).cfg = k.cfg
      ∧ (adopting k).grout = k.grout ∧ (adopting k).records.ring = k.records.ring
      ∧ (adopting k).records.current.ring = k.records.current.ring
      ∧ (adopting k).records.current.spoil = k.records.current.spoil
      ∧ (adopting k).records.current.grout = k.records.current.grout := by
  have pressed : ∀ u : State, ringOf (pressIfWithdrawn u) = ringOf u ∧ baseOf (pressIfWithdrawn u) = baseOf u
      ∧ (pressIfWithdrawn u).cfg = u.cfg ∧ (pressIfWithdrawn u).grout = u.grout
      ∧ (pressIfWithdrawn u).records = u.records := fun u =>
    ⟨ring_pressIfWithdrawn u, base_pressIfWithdrawn u, cfg_of_rest (rest_pressIfWithdrawn u),
      grout_of_rest (rest_pressIfWithdrawn u), pressIfWithdrawn_records u⟩
  unfold adopting
  split
  · exact ⟨rfl, rfl, rfl, rfl, rfl, rfl, rfl, rfl⟩
  · obtain ⟨ring, base, cfg, grout, records⟩ := pressed (onBuildPart (fun b => { b with caughtUp := true }) k)
    rw [records]
    exact ⟨ring, base, cfg, grout, rfl, rfl, rfl, rfl⟩

theorem adopting_in_build (build : k.build.state ≠ .ringOpen) : withdrawn (adopting k) = false
      ∧ (adopting k).records.current.build.map BuildPart.caughtUp = k.records.current.build.map (fun _ => true) := by
  unfold adopting
  rw [if_neg build, pressIfWithdrawn_records]
  refine ⟨withdrawn_pressIfWithdrawn _, ?_⟩
  change (k.records.current.build.map _).map _ = _
  rw [Option.map_map]
  rfl

end

/-! ### A line that stays ARMED -/

theorem injectionEval_used {s : State} (before : s.grout.line = .armed) (after : (injectionEval s).grout.line = .armed) :
    (injectionEval s).grout.used = s.grout.used := by
  have tail : (tailEval s).grout.used = s.grout.used := by
    unfold tailEval
    repeat' split
    all_goals rfl
  have line := tailEval_grout_line s
  rw [before] at line
  unfold injectionEval at after ⊢
  dsimp only at after ⊢
  rw [line] at after ⊢
  dsimp only at after ⊢
  split
  · next holds =>
    rw [if_pos holds] at after
    cases after
  · exact tail

/-- The units are evaluated on the ring that a close has opened, but for a line that its pressure trips (08 R125, R133). -/
theorem closeRing_evaluated {r : Nat} {c : OpeningCause} {x : State}
    (low : judgeLinePressure (injectionEval (unitsEval false (onNewRing r c x))) =
      injectionEval (unitsEval false (onNewRing r c x))) : Evaluated (closeRing r c x) := by
  rw [closeRing_onNewRing, low, injectionEval_eq]
  refine (evaluated_unitsEval false (onNewRing r c x)).congr ⟨rfl, rfl, rfl, rfl, rfl, rfl, rfl⟩ rfl rfl rfl
    (lineReady_injectionEval _) ?_ rfl
  exact congrArg Base.gmin (base_injectionEval (unitsEval false (onNewRing r c x)))

/-- In OPEN an event that finds its units evaluated leaves group mode and injection as they are. -/
theorem settle_evaluated_ringOpen {lim : Bool} {e : State} (evaluated : Evaluated e) (ringOpen : e.build.state = .ringOpen) :
    (unitsAtEnd lim e).thrust.mode = e.thrust.mode := by
  obtain ⟨x, b, shape⟩ := erector_shape_worked (lim := lim) ringOpen
  have again : Evaluated (erectorEval (unitsEval lim e)) := by
    rw [shape]
    exact (evaluated_unitsEval lim e).congr ⟨rfl, rfl, rfl, rfl, rfl, rfl, rfl⟩ rfl rfl rfl rfl rfl rfl
  unfold unitsAtEnd
  rw [(again.again lim).1, shape]
  exact (evaluated.again lim).1

/-- A line that the event of a close finds ARMED and leaves ARMED has not injected in it (08 R123). -/
theorem closeRing_used {lim : Bool} {r : Nat} {c : OpeningCause} {x : State} (running : x.running = true)
    (before : x.grout.line = .armed) (after : (settle lim (closeRing r c x)).grout.line = .armed) :
    (settle lim (closeRing r c x)).grout.used = x.grout.used := by
  obtain ⟨_, _, _, _, _, build, grout⟩ := onNewRing_units (r := r) (c := c) (x := x)
  have ringOpen : (closeRing r c x).build.state = .ringOpen := by rw [closeRing_build, build]
  have runs : (closeRing r c x).running = true := by
    have life : (closeRing r c x).life = x.life := congrArg Base.life (base_closeRing r c x)
    unfold State.running at running ⊢
    rw [life]
    exact running
  have first : (unitsEval false (onNewRing r c x)).grout.line = .armed
      ∧ (unitsEval false (onNewRing r c x)).grout.used = x.grout.used := by
    rw [unitsEval_grout, grout]
    exact ⟨before, rfl⟩
  have ends := settle_grout (lim := lim) runs
  have carried := grout_unitsAtEnd_ringOpen (lim := lim) ringOpen
  have advanced := advance_unitsAtEnd_ringOpen (lim := lim) ringOpen
  by_cases ready : lineReady (closeRing r c x).grout.line = true
  · have low : judgeLinePressure (injectionEval (unitsEval false (onNewRing r c x))) =
        injectionEval (unitsEval false (onNewRing r c x)) := by
      rw [closeRing_onNewRing] at ready
      unfold judgeLinePressure at ready ⊢
      split
      · next trips =>
        rw [if_pos trips] at ready
        cases ready
      · rfl
    have closed : closeRing r c x = injectionEval (unitsEval false (onNewRing r c x)) := by rw [closeRing_onNewRing, low]
    obtain ⟨_, fails, _⟩ := injectionEval_spec (unitsAtEnd lim (closeRing r c x))
    rcases (lineReady_iff _).1 ready with armed | injects
    · have used : (closeRing r c x).grout.used = x.grout.used := by
        rw [closed] at armed ⊢
        rw [injectionEval_used first.1 armed, first.2]
      rw [ends] at after ⊢
      rw [injectionEval_used (by rw [carried]; exact armed) after, carried, used]
    · exfalso
      have holds : injectionCondition (closeRing r c x) = true := by
        have spec := (injectionEval_spec (unitsEval false (onNewRing r c x))).1
        rw [← closed] at spec
        exact spec injects
      have mode := settle_evaluated_ringOpen (lim := lim) (closeRing_evaluated low) ringOpen
      rw [ends] at after
      have active : (injectionEval (unitsAtEnd lim (closeRing r c x))).grout.active = (closeRing r c x).grout.active := by
        have same : (injectionEval (unitsAtEnd lim (closeRing r c x))).grout.active =
            (unitsAtEnd lim (closeRing r c x)).grout.active := congrArg RingPart.active (ring_injectionEval _)
        rw [same, carried]
      have tail : (injectionEval (unitsAtEnd lim (closeRing r c x))).grout.tail = (closeRing r c x).grout.tail := by
        have zero : (closeRing r c x).thrust.advance = 0 :=
          (congrArg RingPart.advance ring_closeRing).trans
            (congrArg Thrust.advance (onNewRing_units (r := r) (c := c) (x := x)).1)
        rw [injectionEval_tail, carried, advanced, closeRing_tail, zero]
        unfold tailCarried
        split
        · next ahead => simp [Option.filter_some, ahead.2]
        · rfl
      have same : injectionCondition (injectionEval (unitsAtEnd lim (closeRing r c x))) =
          injectionCondition (closeRing r c x) := by
        unfold injectionCondition
        rw [active, tail, injectionEval_thrust, mode, advanced]
      rw [fails after, holds] at same
      cases same
  · have rests : lineReady (closeRing r c x).grout.line = false := by simpa using ready
    have line := (settle_line_rests (lim := lim) (e := closeRing r c x) rests).1
    rw [after] at line
    rw [← line] at rests
    cases rests

/-! ### The watches after the ring arrival -/

/-- On an open ring the watches after a STATE do nothing. -/
theorem watches_ringOpen {u : State} (ringOpen : u.build.state = .ringOpen) (retry : u.build.retry = none) :
    decideRetract (marginWatch (retryAtArrival u)) = u := by
  have watch : marginWatch u = u := if_neg (by simp [ringOpen])
  rw [retryAtArrival_none retry, watch, decideRetract_ringOpen ringOpen]

theorem ring_retryAtArrival (s : State) : ringOf (retryAtArrival s) = ringOf s := by
  unfold retryAtArrival
  repeat' split
  all_goals rfl

section
variable {src : Nat} {body : StateBody} {s : State}

/-- The event of a STATE that has the ring closed ends on the ring adopted (03 R62). -/
theorem adopted_end {r : Nat} (running : s.running = true)
    (arrives : ringArrival src (storedBody s src) body (stateKnown src body s) = adoptRing r (stateKnown src body s)) :
    stateTaken src body s = closeRing r .adopted (adopting (stateKnown src body s))
      ∧ RingOpened r .adopted (adopting (stateKnown src body s)) (settle true (stateTaken src body s)) := by
  have taken : stateTaken src body s = closeRing r .adopted (adopting (stateKnown src body s)) := by
    have build := closeRing_build (r := r) (c := .adopted) (x := adopting (stateKnown src body s))
    rw [(onNewRing_units (r := r) (c := .adopted) (x := adopting (stateKnown src body s))).2.2.2.2.2.1] at build
    unfold stateTaken
    rw [arrives, adoptRing_eq]
    exact watches_ringOpen (by rw [build]) (by rw [build])
  refine ⟨taken, ?_⟩
  rw [taken]
  refine ringOpened_end ?_
  have life : (adopting (stateKnown src body s)).life = s.life :=
    (congrArg Base.life adopting_kept.2.1).trans (stateKnown_keeps src body s).2.1
  unfold State.running at running ⊢
  rw [life]
  exact running

/-- The closing station has the figures of the ring of the station that the STATE reached. -/
theorem adopting_known : ringOf (adopting (stateKnown src body s)) = ringOf s
      ∧ (adopting (stateKnown src body s)).cfg = s.cfg ∧ (adopting (stateKnown src body s)).grout = s.grout
      ∧ (adopting (stateKnown src body s)).records.current.ring = s.records.current.ring
      ∧ (adopting (stateKnown src body s)).records.current.spoil = s.records.current.spoil
      ∧ (adopting (stateKnown src body s)).records.current.grout = s.records.current.grout := by
  obtain ⟨ring, _, cfg, grout, _, currentRing, spoil, part⟩ := adopting_kept (k := stateKnown src body s)
  obtain ⟨cfg', grout', currentRing', spoil', part'⟩ := stateKnown_figures src body s
  exact ⟨ring.trans (stateKnown_ring src body s), cfg.trans cfg', grout.trans grout', currentRing.trans currentRing',
    spoil.trans spoil', part.trans part'⟩

/-- In a build the closing station is flagged CAUGHT UP, and its group is not withdrawn. -/
theorem adopting_build (build : s.build.state ≠ .ringOpen) :
    withdrawn (adopting (stateKnown src body s)) = false
      ∧ (adopting (stateKnown src body s)).records.current.build.map BuildPart.caughtUp =
          s.records.current.build.map (fun _ => true) := by
  obtain ⟨_, _, flows, _⟩ := stateKnown_keeps src body s
  obtain ⟨in_, caught⟩ := adopting_in_build (flows.not_ringOpen not_false build)
  refine ⟨in_, caught.trans ?_⟩
  have part := flows.part not_false
  cases known : (stateKnown src body s).records.current.build <;> cases before : s.records.current.build
  · rfl
  · simp [known, before] at part
  · simp [known, before] at part
  · rfl

end

theorem running_of_listening {s : State} (h : s.life = .listening) : s.running = true := by simp [State.running, h]

/-- Settles O26, its four clauses in turn: adoption of a higher ring, adoption from ring 65,535, a LISTENING station, and
a ring that is not higher. -/
theorem higherRingAdopted : Obligations.HigherRingAdopted := by
  refine ⟨fun src body s ready small below foreign whole higher inner => ?_,
    fun src body x s ready small below foreign whole last build ring closed held hisRing hisBuild role lower lowest => ?_,
    fun src body s listening small below foreign higher => ?_,
    fun src body s running small below foreign lower inner absent => ?_⟩
  · obtain ⟨number, life, _, _⟩ := stateKnown_keeps src body s
    obtain ⟨taken, opened⟩ := adopted_end (src := src) (body := body) (r := body.ring) (running_of_ready ready) (by
      unfold ringArrival
      rw [life, ready]
      exact if_pos (by rw [number]; exact higher))
    obtain ⟨ringSame, cfg, grout, currentRing, spoil, part⟩ := adopting_known (src := src) (body := body) (s := s)
    have before : (adopting (stateKnown src body s)).records.ring ≠ 65535 := by
      have same : (adopting (stateKnown src body s)).records.ring = s.records.ring := congrArg RingPart.ring ringSame
      omega
    have stored : StoredAtClose (adopting (stateKnown src body s)) (settle true (stateTaken src body s)) :=
      storedAtClose (by rw [opened.history, if_neg before]) (freshPeers_of_base opened.base)
    have limits := congrArg (fun q : RingPart => q.waitingLimits.getD q.limits) ringSame
    refine ⟨_, exec_stateArrival (running_of_ready ready) below foreign, opened.ring, opened.currentRing, opened.cause,
      stored.congr ringSame cfg currentRing spoil part, fun armed still => ?_, fun build => ?_, opened.advance, opened.lring,
      opened.accumulator, opened.strokes, opened.volume, by rw [opened.active, grout], opened.waiting,
      opened.limits.trans limits, opened.waitingLimits, opened.state, opened.entries, opened.index,
      fun build => opened.inside (adopting_build build).1⟩
    · have runs : (adopting (stateKnown src body s)).running = true := by
        have same : (adopting (stateKnown src body s)).life = s.life :=
          (congrArg Base.life adopting_kept.2.1).trans life
        exact running_of_ready (same.trans ready)
      rw [taken] at still ⊢
      rw [closeRing_used runs (by rw [grout]; exact armed) still, grout]
    · exact (opened.built BuildPart.caughtUp before).trans (adopting_build build).2
  · obtain ⟨number, life, flows, _⟩ := stateKnown_keeps src body s
    have station : erectorStation (stateKnown src body s) = some src :=
      erectorStation_stateHeard small foreign whole role lower lowest (base_stateKnown src body s)
    have old : storedBody s src = some x.body := by unfold storedBody; rw [held]; rfl
    have goes : lastRingClosed src (storedBody s src) body (stateKnown src body s) = true := by
      unfold lastRingClosed
      rw [old, number, station]
      simp [last, flows.not_ringOpen not_false build, ring, closed, hisRing, hisBuild]
    obtain ⟨_, opened⟩ := adopted_end (src := src) (body := body) (r := 65535) (running_of_ready ready) (by
      unfold ringArrival
      rw [life, ready]
      dsimp only
      rw [if_neg (by rw [number]; omega), if_pos goes])
    obtain ⟨ringSame, _, grout, _, _, _⟩ := adopting_known (src := src) (body := body) (s := s)
    have same : (adopting (stateKnown src body s)).records.ring = s.records.ring := congrArg RingPart.ring ringSame
    have limits := congrArg (fun q : RingPart => q.waitingLimits.getD q.limits) ringSame
    exact ⟨_, exec_stateArrival (running_of_ready ready) below foreign, opened.ring, opened.currentRing, opened.cause,
      by rw [opened.history, if_pos (same.trans last)], opened.advance, opened.lring, opened.accumulator, opened.strokes,
      opened.volume, by rw [opened.active, grout], opened.waiting, opened.limits.trans limits, opened.waitingLimits,
      opened.state, opened.entries, opened.index, opened.inside (adopting_build build).1⟩
  · obtain ⟨number, life, _, _⟩ := stateKnown_keeps src body s
    have history : (stateKnown src body s).records.history = s.records.history :=
      congrArg RingPart.history (stateKnown_ring src body s)
    have runs : (openRing body.ring .adopted (stateKnown src body s)).running = true :=
      running_of_listening (life.trans listening)
    have taken : stateTaken src body s = openRing body.ring .adopted (stateKnown src body s) := by
      have arrives : ringArrival src (storedBody s src) body (stateKnown src body s) =
          openRing body.ring .adopted (stateKnown src body s) := by
        unfold ringArrival
        rw [life, listening]
        exact if_pos (by rw [number]; exact higher)
      unfold stateTaken
      rw [arrives]
      exact watches_ringOpen rfl rfl
    have run := exec_stateArrival (body := body) (running_of_listening listening) below foreign
    rw [taken] at run
    have ring := ring_settle_ringOpen (lim := true) (e := openRing body.ring .adopted (stateKnown src body s)) rfl
    have figure : ∀ {α : Type} (f : RingPart → α),
        f (ringOf (settle true (openRing body.ring .adopted (stateKnown src body s)))) =
        f (ringOf (openRing body.ring .adopted (stateKnown src body s))) := fun f => congrArg f ring
    exact ⟨_, run, figure RingPart.ring, settle_currentRing_ringOpen rfl, figure RingPart.cause,
      (figure RingPart.history).trans history, figure RingPart.advance, figure RingPart.lring, figure RingPart.accumulator,
      figure RingPart.strokes, figure RingPart.volume, settle_tail_ringOpen rfl runs⟩
  · obtain ⟨number, life, _, _⟩ := stateKnown_keeps src body s
    have arrived :
        ringOf (ringArrival src (storedBody s src) body (stateKnown src body s)) = ringOf (stateKnown src body s) := by
      have last : lastRingClosed src (storedBody s src) body (stateKnown src body s) = false := by
        unfold lastRingClosed
        rw [number]
        simp [Nat.ne_of_lt inner]
      unfold ringArrival
      rw [number, if_neg (Nat.not_lt.2 lower), if_neg (Nat.not_lt.2 lower), if_neg (by simp [last])]
      split
      · rfl
      · split
        · unfold followSuspension stateCatchUp
          repeat' split
          all_goals simp
        · rfl
      · rfl
    have roles : (stateTaken src body s).cfg.roles.erector = false := by rw [(cfg_stateTaken src body s).1]; exact absent
    refine ⟨_, exec_stateArrival running below foreign, (ring_settle_absent roles).trans ?_⟩
    unfold stateTaken
    rw [ring_decideRetract, ring_marginWatch, ring_retryAtArrival, arrived, stateKnown_ring]

end Sys2Proof.Machine
end

section
/-! PROOF. What a STEP does to plan and group: the actions at the entry at the progress index (03 R58, R60), above it (03
R57), and the end of the event at a station without ERECTOR. -/

namespace Sys2Proof.Machine

open Sys2Proof

/-! ### The end of the event at a station without ERECTOR -/

/-- What the event leaves of the station `j` that the STEP has been applied to, without ERECTOR. -/
structure StepEnds (j t : State) : Prop where
  plan : planOf t = planOf j
  base : baseOf t = baseOf j
  ring : ringOf t = ringOf j
  part : t.records.current.build = j.records.current.build
  mode : j.build.state ≠ .ringOpen → j.thrust.mode ≠ .advance → decideRetract j = j → t.thrust.mode = j.thrust.mode

theorem stepEnds {j : State} (running : j.running = true) (absent : j.cfg.roles.erector = false) :
    StepEnds j (settle false (decideRetract j)) := by
  have base := base_decideRetract j
  have there : (decideRetract j).cfg.roles.erector = false := by rw [cfg_of_base base]; exact absent
  refine ⟨(settle_plan_absent there).trans (plan_decideRetract j), (settle_frame false _).1.trans base,
    (ring_settle_absent there).trans (ring_decideRetract j), ?_, fun build advance still => ?_⟩
  · rw [settle_buildPart_absent there, decideRetract_records]
  · rw [still, settle_mode_in_build running false absent build advance]

theorem decideRetract_suspended {s : State} (idle : s.build.state ≠ .building) : decideRetract s = s := by
  rcases decideRetract_cases s with same | ⟨building, _⟩
  · exact same
  · exact absurd building idle

theorem decideRetract_unpending {s : State} (current : currentEntryState s ≠ some .pending) : decideRetract s = s := by
  rcases decideRetract_cases s with same | ⟨_, _, pending, _⟩
  · exact same
  · exact absurd pending current

/-! ### Actions but SET at the entry at the progress index -/

/-- The state of a worked entry after an action other than SET (03 R58). -/
def stateAfter (a : StepAction) (x : EntryState) : EntryState :=
  if x = .placed ∨ a = .placed then .placed else if a = .claim then .claimed else .pending

/-- An entry that is worked: neither EMPTY nor SET. -/
def worked (x : EntryState) : Prop := x = .pending ∨ x = .claimed ∨ x = .placed

/-- The entries with the state of one replaced. -/
def withState (i : Nat) (x : EntryState) (l : List PlanEntry) : List PlanEntry :=
  l.modify i (fun p => { p with state := x })

section
variable {s : State} {a : StepAction} {e : PlanEntry} (entry : s.build.entries[s.build.index]? = some e)
include entry

theorem setEntryState_same : setEntryState e.state s = s := by
  have same : s.build.entries.modify s.build.index (fun p => { p with state := e.state }) = s.build.entries := by
    refine List.ext_getElem? fun i => ?_
    rw [List.getElem?_modify]
    by_cases here : s.build.index = i
    · subst here
      rw [entry]
      simp
    · simp [here]
  unfold setEntryState
  rw [same]

theorem currentEntryState_set (x : EntryState) : currentEntryState (setEntryState x s) = some x := by
  unfold currentEntryState planAt setEntryState
  dsimp only
  rw [List.getElem?_modify, entry]
  simp

theorem ownCovered_entry : ownCovered s = e.cover.contains s.own := by
  unfold ownCovered planAt
  rw [entry]

/-- The table of 03 R58 for a worked entry. -/
theorem applyAction_worked (other : a ≠ .set) (works : worked e.state) :
    (a ≠ .placed ∧ (a = .release → e.state = .placed) ∧ stateAfter a e.state = e.state ∧ applyAction a s = s)
      ∨ (a = .claim ∧ stateAfter a e.state = .claimed ∧ applyAction a s = setEntryState .claimed s)
      ∨ (a = .release ∧ e.state ≠ .placed ∧ stateAfter a e.state = .pending ∧ applyAction a s = releaseEntry s)
      ∨ (a = .placed ∧ stateAfter a e.state = .placed ∧ applyAction a s = placeEntry s) := by
  unfold applyAction planAt
  rw [entry]
  dsimp only
  rcases works with is | is | is
  · rw [is]
    cases a
    · exact .inr (.inl ⟨rfl, rfl, rfl⟩)
    · exact .inr (.inr (.inl ⟨rfl, nofun, rfl, rfl⟩))
    · exact .inr (.inr (.inr ⟨rfl, rfl, rfl⟩))
    · exact absurd rfl other
  · rw [is]
    cases a
    · exact .inl ⟨nofun, nofun, rfl, rfl⟩
    · exact .inr (.inr (.inl ⟨rfl, nofun, rfl, rfl⟩))
    · exact .inr (.inr (.inr ⟨rfl, rfl, rfl⟩))
    · exact absurd rfl other
  · rw [is]
    cases a
    · exact .inl ⟨nofun, nofun, rfl, rfl⟩
    · exact .inl ⟨nofun, fun _ => rfl, rfl, rfl⟩
    · exact .inr (.inr (.inr ⟨rfl, rfl, rfl⟩))
    · exact absurd rfl other

/-- The plan after an action on a worked entry, but for the retry wait that a RELEASE may begin (03 R53). -/
theorem entries_applyAction (other : a ≠ .set) (works : worked e.state) :
    (applyAction a s).build.entries = withState s.build.index (stateAfter a e.state) s.build.entries
      ∧ (applyAction a s).build.index = s.build.index ∧ (applyAction a s).build.state = s.build.state := by
  have pressed : ∀ u : State, (pressRequest u).build.entries = u.build.entries
      ∧ (pressRequest u).build.index = u.build.index ∧ (pressRequest u).build.state = u.build.state := by
    intro u
    rcases pressRequest_cases u with e | e | ⟨_, e⟩ <;> rw [e] <;> exact ⟨rfl, rfl, rfl⟩
  rcases applyAction_worked entry other works with ⟨_, _, is, same⟩ | ⟨_, is, same⟩ | ⟨_, _, is, same⟩ | ⟨_, is, same⟩
  · rw [same, is]
    have entries := congrArg (fun u : State => u.build.entries) (setEntryState_same entry)
    exact ⟨entries.symm, rfl, rfl⟩
  · rw [same, is]
    exact ⟨rfl, rfl, rfl⟩
  · rw [same, is]
    unfold releaseEntry
    dsimp only
    repeat' split
    · exact pressed (setEntryState .pending s)
    · exact ⟨rfl, rfl, rfl⟩
    · exact pressed (setEntryState .pending s)
    · exact ⟨rfl, rfl, rfl⟩
  · rw [same, is]
    unfold placeEntry pressIfWithdrawn
    dsimp only
    repeat' split
    · exact pressed (setEntryState .placed s)
    · exact ⟨rfl, rfl, rfl⟩
    · exact ⟨rfl, rfl, rfl⟩

/-- With the group not withdrawn an action on a worked entry changes the entry alone (03 R58, R59). -/
theorem applyAction_in (other : a ≠ .set) (works : worked e.state) (in_ : withdrawn s = false) :
    applyAction a s = setEntryState (stateAfter a e.state) s := by
  have in' : ∀ x, withdrawn (setEntryState x s) = false := fun x => (withdrawn_setEntryState x s).trans in_
  rcases applyAction_worked entry other works with ⟨_, _, is, same⟩ | ⟨_, is, same⟩ | ⟨_, _, is, same⟩ | ⟨_, is, same⟩
  · rw [same, is, setEntryState_same entry]
  · rw [same, is]
  · rw [same, is]
    exact if_neg (by simp [in'])
  · rw [same, is]
    unfold placeEntry
    dsimp only
    rw [pressIfWithdrawn_kept (in' _)]
    split <;> rfl

/-- How an action on a worked entry that the own sector covers moves a withdrawn group (03 R58, R59). -/
theorem mode_applyAction (out : withdrawn s = true) (works : worked e.state) :
    (a = .claim → (applyAction a s).thrust.mode = s.thrust.mode ∧ decideRetract (applyAction a s) = applyAction a s)
      ∧ (e.cover.contains s.own = true →
          a = .placed ∨ (a = .release ∧ e.state ≠ .placed ∧ s.build.state = .suspended) →
          (applyAction a s).thrust.mode = (if s.cfg.pressForce ≤ s.inputs.force then .hold else .pressing)
            ∧ decideRetract (applyAction a s) = applyAction a s) := by
  have mode : s.thrust.mode ≠ .hold := fun is => by simp [withdrawn, is] at out
  constructor
  · rintro rfl
    rcases applyAction_worked (a := .claim) entry nofun works with ⟨_, _, _, same⟩ | ⟨_, _, same⟩ | ⟨is, _⟩ | ⟨is, _⟩
    · rw [same]
      exact ⟨rfl, decideRetract_out mode⟩
    · rw [same]
      exact ⟨rfl, decideRetract_out mode⟩
    · cases is
    · cases is
  · intro cover acts
    have covered : ownCovered s = true := (ownCovered_entry entry).trans cover
    have presses : ∀ x, pressIfWithdrawn (setEntryState x s) = pressRequest (setEntryState x s) := fun x =>
      if_pos ((withdrawn_setEntryState x s).trans out)
    have pressed : ∀ x, (pressRequest (setEntryState x s)).thrust.mode =
        (if s.cfg.pressForce ≤ s.inputs.force then .hold else .pressing) := by
      intro x
      rw [← presses]
      exact pressIfWithdrawn_mode ((withdrawn_setEntryState x s).trans out)
    have kept : ∀ u : State, (pressRequest u).build.state = u.build.state
        ∧ currentEntryState (pressRequest u) = currentEntryState u := by
      intro u
      rcases pressRequest_cases u with e | e | ⟨_, e⟩ <;> rw [e] <;> exact ⟨rfl, rfl⟩
    rcases acts with rfl | ⟨rfl, unplaced, suspended⟩
    · rcases applyAction_worked (a := .placed) entry nofun works with ⟨no, _⟩ | ⟨is, _⟩ | ⟨is, _⟩ | ⟨_, _, same⟩
      · exact absurd rfl no
      · cases is
      · cases is
      · have acted : applyAction .placed s = pressRequest (setEntryState .placed s) := by
          rw [same, placeEntry, if_pos (by rw [ownCovered_setEntryState]; exact covered), presses]
        rw [acted]
        refine ⟨pressed .placed, decideRetract_unpending ?_⟩
        rw [(kept _).2, currentEntryState_set entry]
        nofun
    · rcases applyAction_worked (a := .release) entry nofun works with ⟨_, no, _⟩ | ⟨is, _⟩ | ⟨_, _, _, same⟩ | ⟨is, _⟩
      · exact absurd (no rfl) unplaced
      · cases is
      · have acted : applyAction .release s = pressRequest (setEntryState .pending s) := by
          rw [same, releaseEntry, if_pos (by simp [covered, out])]
          exact if_pos suspended
        rw [acted]
        refine ⟨pressed .pending, decideRetract_suspended ?_⟩
        rw [(kept _).1]
        change s.build.state ≠ _
        rw [suspended]
        nofun
      · cases is

end

/-! ### The index moved past an entry -/

/-- The station with the index moved on and the group pressed, before the entry reached is judged (03 R60). -/
def movedTo (j : Nat) (s : State) : State := pressIfWithdrawn (pressPassed (moveIndex j s))

theorem setEntry_movedTo {e : PlanEntry} (open_ : e.key = false) (s : State) :
    setEntry e s = judgeEmpty (movedTo (s.build.index + 1) s) := by
  unfold setEntry
  dsimp only
  rw [open_]
  rfl

theorem movedTo_shape (j : Nat) (s : State) : ∃ x, pressPassed (moveIndex j s) = { moveIndex j s with erector := x } :=
  pressPassed_eq (moveIndex j s)

theorem plan_movedTo (j : Nat) (s : State) :
    planOf (movedTo j s) = { planOf s with entries := entriesSet j s.build.entries, index := j, retry := none } := by
  obtain ⟨x, shape⟩ := movedTo_shape j s
  unfold movedTo
  rw [plan_pressIfWithdrawn, shape]
  rfl

theorem pressIfWithdrawn_mode_congr {u s : State} (thrust : u.thrust = s.thrust) (inputs : u.inputs = s.inputs)
    (cfg : u.cfg = s.cfg) : (pressIfWithdrawn u).thrust.mode = (pressIfWithdrawn s).thrust.mode := by
  by_cases out : withdrawn s = true
  · rw [pressIfWithdrawn_mode out, pressIfWithdrawn_mode (by unfold withdrawn; rw [thrust]; exact out), inputs, cfg]
  · have in_ := Bool.eq_false_iff.2 out
    rw [pressIfWithdrawn_kept in_, pressIfWithdrawn_kept (by unfold withdrawn; rw [thrust]; exact in_), thrust]

theorem movedTo_kept (j : Nat) (s : State) :
    (movedTo j s).thrust.mode = (pressIfWithdrawn s).thrust.mode ∧ withdrawn (movedTo j s) = false
      ∧ (movedTo j s).records = s.records := by
  obtain ⟨x, shape⟩ := movedTo_shape j s
  refine ⟨?_, withdrawn_pressIfWithdrawn _, ?_⟩
  · unfold movedTo
    rw [shape]
    exact pressIfWithdrawn_mode_congr rfl rfl rfl
  · unfold movedTo
    rw [pressIfWithdrawn_records, shape]
    rfl

/-- Reaching an EMPTY entry raises PLAN MISMATCH and suspends a build that goes on (03 R46). -/
theorem plan_judgeEmpty {x : State} (retry : x.build.retry = none) :
    planOf (judgeEmpty x) =
      { planOf x with
        planMismatch := x.build.planMismatch || decide (currentEntryState x = some .empty)
        state := if x.build.state = .building ∧ currentEntryState x = some .empty then .suspended else x.build.state } := by
  unfold judgeEmpty
  by_cases empty : currentEntryState x = some .empty
  · rw [if_pos empty, plan_suspendBuild]
    change (if x.build.state = .building then _ else _) = _
    split
    · next building => simp [empty, building, planOf, raiseMismatch, retry]
    · next idle => simp [empty, idle, planOf, raiseMismatch]
  · rw [if_neg empty]
    simp [empty, planOf]

theorem judgeEmpty_kept {x : State} (in_ : withdrawn x = false) :
    (judgeEmpty x).thrust.mode = x.thrust.mode ∧ withdrawn (judgeEmpty x) = false
      ∧ (judgeEmpty x).records.current.build.map BuildPart.caughtUp = x.records.current.build.map BuildPart.caughtUp := by
  unfold judgeEmpty
  split
  · have mode : (suspendBuild (raiseMismatch x)).thrust.mode = x.thrust.mode :=
      suspendBuild_mode_in (s := raiseMismatch x) in_
    refine ⟨mode, ?_, caughtUp_suspendBuild _⟩
    unfold withdrawn at in_ ⊢
    rw [mode]
    exact in_
  · exact ⟨rfl, in_, rfl⟩

theorem entriesSet_get (j i : Nat) (l : List PlanEntry) :
    (entriesSet j l)[i]? = if i < j then l[i]?.map (fun p => { p with state := .set }) else l[i]? := by
  unfold entriesSet
  split
  · next below =>
    by_cases there : i < l.length
    · rw [List.getElem?_append_left (by simp; omega), List.getElem?_map, List.getElem?_take_of_lt below]
    · rw [List.getElem?_eq_none (by simp; omega), List.getElem?_eq_none (by omega)]
      rfl
  · next above =>
    by_cases there : j ≤ l.length
    · rw [List.getElem?_append_right (by simp; omega), List.getElem?_drop]
      simp only [List.length_map, List.length_take, Nat.min_eq_left there]
      congr 1
      omega
    · rw [List.getElem?_eq_none (by simp; omega), List.getElem?_eq_none (by omega)]

theorem entriesSet_reached (j : Nat) (l : List PlanEntry) : (entriesSet j l)[j]? = l[j]? := by
  rw [entriesSet_get, if_neg (Nat.lt_irrefl j)]

/-- The entries once those below the next index are SET too. -/
theorem entriesSet_next (j : Nat) (l : List PlanEntry) : entriesSet (j + 1) (entriesSet j l) = entriesSet (j + 1) l := by
  refine List.ext_getElem? fun i => ?_
  rw [entriesSet_get, entriesSet_get, entriesSet_get]
  by_cases next : i < j + 1
  · rw [if_pos next, if_pos next]
    split
    · rw [Option.map_map]
      rfl
    · rfl
  · rw [if_neg next, if_neg next, if_neg (by omega)]

theorem entriesSet_modify {j : Nat} {l : List PlanEntry} (f : PlanEntry → PlanEntry) (there : j ≤ l.length) :
    (entriesSet j l).modify j f = (l.take j).map (fun p => { p with state := .set }) ++ (l.drop j).modify 0 f := by
  have below : ((l.take j).map (fun p : PlanEntry => { p with state := .set })).length = j := by
    rw [List.length_map, List.length_take, Nat.min_eq_left there]
  rw [List.modify_eq_take_drop, List.modify_eq_take_drop]
  unfold entriesSet
  rw [List.take_left' below, List.drop_left' below]
  rfl

end Sys2Proof.Machine
end

section
/-! PROOF. O24, its clauses at a station without ERECTOR: STEP notices at the build unit. -/

namespace Sys2Proof.Machine

open Sys2Proof

/-! ### How a STEP is judged -/

section
variable {s : State} {a : StepAction} {index : Nat} (build : s.build.state ≠ .ringOpen)
include build

theorem judgeStep_here {e : PlanEntry} (entry : s.build.entries[s.build.index]? = some e) :
    judgeStep a s.records.ring s.build.index s = applyAction a s := by
  obtain ⟨there, _⟩ := List.getElem?_eq_some_iff.1 entry
  unfold judgeStep
  rw [if_neg build, if_neg (Nat.lt_irrefl _), if_neg (fun h => h rfl), if_neg (Nat.not_le.2 there),
    if_neg (Nat.lt_irrefl _), if_pos rfl]

theorem judgeStep_above {e : PlanEntry} (ahead : s.build.index < index) (entry : s.build.entries[index]? = some e) :
    judgeStep a s.records.ring index s = applyAction a (catchUp index s) := by
  obtain ⟨there, _⟩ := List.getElem?_eq_some_iff.1 entry
  unfold judgeStep
  rw [if_neg build, if_neg (Nat.lt_irrefl _), if_neg (fun h => h rfl), if_neg (Nat.not_le.2 there),
    if_neg (by omega), if_neg (by omega)]

theorem judgeStep_ignored {ring : Nat} (old : ring < s.records.ring
      ∨ (ring = s.records.ring ∧ index < s.build.entries.length ∧ index < s.build.index)) :
    judgeStep a ring index s = s := by
  unfold judgeStep
  rw [if_neg build]
  rcases old with lower | ⟨same, there, below⟩
  · rw [if_pos lower]
  · rw [if_neg (by omega), if_neg (by omega), if_neg (by omega), if_pos below]

theorem judgeStep_mismatched {ring : Nat} (new : s.records.ring < ring
      ∨ (ring = s.records.ring ∧ s.build.entries.length ≤ index)) :
    judgeStep a ring index s = raiseMismatch s := by
  unfold judgeStep
  rw [if_neg build]
  rcases new with higher | ⟨same, beyond⟩
  · rw [if_neg (by omega), if_pos (by omega)]
  · rw [if_neg (by omega), if_neg (by omega), if_pos beyond]

end

/-! ### The STEP taken -/

/-- The event of a STEP at a READY station without ERECTOR. -/
theorem step_taken {src ring index : Nat} {a : StepAction} {s : State} (ready : s.life = .ready) (below : src < s.cfg.n)
    (foreign : src ≠ s.own) (absent : s.cfg.roles.erector = false) :
    ∃ t, exec (.stepArrival src a ring index) s = .next t ∧ baseOf t = baseOf s ∧ StepEnds (judgeStep a ring index s) t := by
  have base : baseOf (judgeStep a ring index s) = baseOf s := by
    unfold judgeStep
    repeat' split
    all_goals simp only [base_raiseMismatch, base_applyAction, base_catchUp]
  have ends := stepEnds (j := judgeStep a ring index s) ((running_of_base base).trans (running_of_ready ready))
    (by rw [cfg_of_base base]; exact absent)
  exact ⟨_, exec_stepArrival a ring index ready below foreign, ends.base.trans base, ends⟩

/-- A withdrawn group pressed below the pressing force is in PRESSING (02 R26). -/
theorem pressed_weak {s : State} (out : withdrawn s = true) (weak : s.inputs.force < s.cfg.pressForce) :
    (pressIfWithdrawn s).thrust.mode = .pressing := by
  rw [pressIfWithdrawn_mode out, if_neg (Nat.not_le.2 weak)]

/-- A group that the STEP presses ends the event in PRESSING. -/
theorem StepEnds.pressing {j t : State} (h : StepEnds j t) (build : j.build.state ≠ .ringOpen)
    (pressing : j.thrust.mode = .pressing) : t.thrust.mode = .pressing := by
  rw [h.mode build (by rw [pressing]; nofun) (decideRetract_out (by rw [pressing]; nofun)), pressing]

section
variable {s : State} {a : StepAction} {e : PlanEntry}

/-- Clause 1: an action on the entry at the progress index. -/
theorem step_here {t : State} (build : s.build.state ≠ .ringOpen) (entry : s.build.entries[s.build.index]? = some e)
    (other : a ≠ .set) (works : worked e.state) (ends : StepEnds (applyAction a s) t) :
    t.build.entries = withState s.build.index (stateAfter a e.state) s.build.entries
      ∧ t.build.index = s.build.index ∧ t.build.state = s.build.state
      ∧ (a = .claim → withdrawn s = true → t.thrust.mode = s.thrust.mode)
      ∧ (a = .placed ∨ (a = .release ∧ e.state ≠ .placed ∧ s.build.state = .suspended) →
          e.cover.contains s.own = true → withdrawn s = true →
          t.thrust.mode = if s.cfg.pressForce ≤ s.inputs.force then .hold else .pressing) := by
  obtain ⟨entries, index, state⟩ := entries_applyAction entry other works
  have built : (applyAction a s).build.state ≠ .ringOpen := by rw [state]; exact build
  have plan := ends.plan
  refine ⟨?_, ?_, ?_, fun claim out => ?_, fun acts cover out => ?_⟩
  · have same := congrArg Build.entries plan
    exact same.trans entries
  · have same := congrArg Build.index plan
    exact same.trans index
  · have same := congrArg Build.state plan
    exact same.trans state
  · obtain ⟨mode, still⟩ := (mode_applyAction entry out works).1 claim
    rw [ends.mode built ?_ still, mode]
    rw [mode]
    exact fun is => by simp [withdrawn, is] at out
  · obtain ⟨mode, still⟩ := (mode_applyAction entry out works).2 cover acts
    rw [ends.mode built ?_ still, mode]
    rw [mode]
    split <;> nofun

/-- A SET of an entry without the KEY marker at the progress index of `c`, whose retry wait and group the caller names. -/
theorem set_plan {c : State} (entry : c.build.entries[c.build.index]? = some e) (open_ : e.key = false) :
    planOf (applyAction .set c) =
        { planOf c with
          entries := entriesSet (c.build.index + 1) c.build.entries, index := c.build.index + 1, retry := none
          planMismatch := c.build.planMismatch
            || decide ((c.build.entries[c.build.index + 1]?).map PlanEntry.state = some .empty)
          state :=
            if c.build.state = .building ∧ (c.build.entries[c.build.index + 1]?).map PlanEntry.state = some .empty then
              .suspended
            else c.build.state }
      ∧ (applyAction .set c).thrust.mode = (pressIfWithdrawn c).thrust.mode
      ∧ (applyAction .set c).records.current.build.map BuildPart.caughtUp =
          c.records.current.build.map BuildPart.caughtUp := by
  have acts : applyAction .set c = judgeEmpty (movedTo (c.build.index + 1) c) := by
    unfold applyAction planAt
    rw [entry]
    exact setEntry_movedTo open_ c
  have plan := plan_movedTo (c.build.index + 1) c
  obtain ⟨mode, in_, records⟩ := movedTo_kept (c.build.index + 1) c
  have retry := congrArg Build.retry plan
  have entries := congrArg Build.entries plan
  have index := congrArg Build.index plan
  have mismatch := congrArg Build.planMismatch plan
  have state := congrArg Build.state plan
  have current : currentEntryState (movedTo (c.build.index + 1) c) =
      (c.build.entries[c.build.index + 1]?).map PlanEntry.state := by
    unfold currentEntryState planAt
    refine congrArg (Option.map PlanEntry.state) ?_
    rw [show (movedTo (c.build.index + 1) c).build.index = c.build.index + 1 from index,
      show (movedTo (c.build.index + 1) c).build.entries = _ from entries]
    exact entriesSet_reached _ _
  obtain ⟨mode', _, part⟩ := judgeEmpty_kept in_
  rw [acts]
  refine ⟨?_, mode'.trans mode, part.trans (by rw [records])⟩
  rw [plan_judgeEmpty retry, plan, current,
    show (movedTo (c.build.index + 1) c).build.planMismatch = c.build.planMismatch from mismatch,
    show (movedTo (c.build.index + 1) c).build.state = c.build.state from state]

/-- An action other than SET on an entry reached by a catch-up, with the group pressed already (03 R57, R58). -/
theorem applyAction_caught {c : State} (entry : c.build.entries[c.build.index]? = some e) (other : a ≠ .set)
    (in_ : withdrawn c = false) :
    applyAction a c =
      if e.state = .empty then raiseMismatch c
      else setEntryState (if e.state = .empty ∨ e.state = .set then e.state else stateAfter a e.state) c := by
  by_cases empty : e.state = .empty
  · rw [if_pos empty]
    unfold applyAction planAt
    rw [entry]
    dsimp only
    rw [empty]
    cases a
    · rfl
    · rfl
    · rfl
    · exact absurd rfl other
  · rw [if_neg empty]
    by_cases done_ : e.state = .set
    · rw [if_pos (.inr done_), setEntryState_same entry]
      unfold applyAction planAt
      rw [entry]
      dsimp only
      rw [done_]
      cases a
      · rfl
      · rfl
      · rfl
      · exact absurd rfl other
    · rw [if_neg (by simp [empty, done_])]
      refine applyAction_in entry other ?_ in_
      unfold worked
      cases is : e.state
      · exact absurd is empty
      · exact .inl rfl
      · exact .inr (.inl rfl)
      · exact .inr (.inr rfl)
      · exact absurd is done_

theorem planOf_applyAction_caught {c : State} (entry : c.build.entries[c.build.index]? = some e) (other : a ≠ .set)
    (in_ : withdrawn c = false) :
    planOf (applyAction a c) =
        { planOf c with
          entries := withState c.build.index
            (if e.state = .empty ∨ e.state = .set then e.state else stateAfter a e.state) c.build.entries
          planMismatch := c.build.planMismatch || decide (e.state = .empty) }
      ∧ (applyAction a c).thrust = c.thrust ∧ (applyAction a c).records = c.records := by
  rw [applyAction_caught entry other in_]
  by_cases empty : e.state = .empty
  · have same := congrArg (fun u : State => u.build.entries) (setEntryState_same entry)
    have kept : withState c.build.index e.state c.build.entries = c.build.entries := same
    rw [if_pos empty, if_pos (.inl empty), kept]
    exact ⟨by simp [planOf, raiseMismatch, empty], rfl, rfl⟩
  · rw [if_neg empty]
    exact ⟨by simp [planOf, setEntryState, withState, empty], rfl, rfl⟩

/-- The entry that a catch-up reaches. -/
theorem entry_catchUp {index : Nat} (entry : s.build.entries[index]? = some e) :
    (catchUp index s).build.entries = entriesSet index s.build.entries ∧ (catchUp index s).build.index = index
      ∧ (catchUp index s).build.entries[(catchUp index s).build.index]? = some e := by
  have plan := plan_catchUp entry
  have entries := congrArg Build.entries plan
  have at_ := congrArg Build.index plan
  have entries' : (catchUp index s).build.entries = entriesSet index s.build.entries := entries
  have index' : (catchUp index s).build.index = index := at_
  refine ⟨entries', index', ?_⟩
  rw [entries', index', entriesSet_reached, entry]

/-- Clause 6: an action other than SET above the progress index. -/
theorem step_above {index : Nat} {t : State} (build : s.build.state ≠ .ringOpen)
    (entry : s.build.entries[index]? = some e) (other : a ≠ .set) (ends : StepEnds (applyAction a (catchUp index s)) t) :
    t.build.index = index ∧ t.build.retry = none
      ∧ t.build.entries = (s.build.entries.take index).map (fun p => { p with state := .set })
          ++ (s.build.entries.drop index).modify 0 (fun p =>
              { p with state := if e.state = .empty ∨ e.state = .set then e.state else stateAfter a e.state })
      ∧ t.build.planMismatch = (s.build.planMismatch || decide (e.state = .empty))
      ∧ t.build.state = (if s.build.state = .building ∧ e.state = .empty then .suspended else s.build.state)
      ∧ t.records.current.build.map BuildPart.caughtUp = s.records.current.build.map (fun _ => true)
      ∧ (withdrawn s = true → s.inputs.force < s.cfg.pressForce → t.thrust.mode = .pressing) := by
  obtain ⟨there, _⟩ := List.getElem?_eq_some_iff.1 entry
  obtain ⟨entries, at_, reached⟩ := entry_catchUp entry
  obtain ⟨mode, in_⟩ := catchUp_mode index s
  obtain ⟨plan, thrust, records⟩ := planOf_applyAction_caught reached other in_
  have whole := ends.plan.trans plan
  have caught := plan_catchUp entry
  have retry := congrArg Build.retry caught
  have mismatch := congrArg Build.planMismatch caught
  have state := congrArg Build.state caught
  have mismatch' : (catchUp index s).build.planMismatch = (s.build.planMismatch || decide (e.state = .empty)) := mismatch
  have state' : (catchUp index s).build.state =
      if s.build.state = .building ∧ e.state = .empty then .suspended else s.build.state := state
  have built : (catchUp index s).build.state ≠ .ringOpen := by
    rw [state']
    split
    · nofun
    · exact build
  have stateSame : (applyAction a (catchUp index s)).build.state = (catchUp index s).build.state := by
    have same := congrArg Build.state plan
    exact same
  refine ⟨?_, ?_, ?_, ?_, ?_, ?_, fun out weak => ?_⟩
  · have same := congrArg Build.index whole
    exact same.trans at_
  · have same := congrArg Build.retry whole
    exact same.trans retry
  · have same := congrArg Build.entries whole
    refine same.trans ?_
    change withState (catchUp index s).build.index _ (catchUp index s).build.entries = _
    rw [at_, entries]
    exact entriesSet_modify _ (Nat.le_of_lt there)
  · have same := congrArg Build.planMismatch whole
    refine same.trans ?_
    change ((catchUp index s).build.planMismatch || _) = _
    rw [mismatch', Bool.or_assoc, Bool.or_self]
  · have same := congrArg Build.state ends.plan
    exact same.trans (stateSame.trans state')
  · rw [ends.part, records]
    exact catchUp_records index s
  · refine ends.pressing (by rw [stateSame]; exact built) ?_
    rw [thrust, mode]
    exact pressed_weak out weak

/-- Clause 7: a SET above the progress index, of an entry without the KEY marker. -/
theorem set_above {index : Nat} {t : State} (build : s.build.state ≠ .ringOpen)
    (entry : s.build.entries[index]? = some e) (open_ : e.key = false)
    (ends : StepEnds (applyAction .set (catchUp index s)) t) :
    t.build.index = index + 1 ∧ t.build.retry = none ∧ t.build.entries = entriesSet (index + 1) s.build.entries
      ∧ t.build.planMismatch = (s.build.planMismatch
          || decide (e.state = .empty ∨ (s.build.entries[index + 1]?).map PlanEntry.state = some .empty))
      ∧ t.build.state =
          (if s.build.state = .building
              ∧ (e.state = .empty ∨ (s.build.entries[index + 1]?).map PlanEntry.state = some .empty) then .suspended
            else s.build.state)
      ∧ t.records.current.build.map BuildPart.caughtUp = s.records.current.build.map (fun _ => true)
      ∧ (withdrawn s = true → s.inputs.force < s.cfg.pressForce → t.thrust.mode = .pressing) := by
  obtain ⟨entries, at_, reached⟩ := entry_catchUp entry
  obtain ⟨mode, in_⟩ := catchUp_mode index s
  obtain ⟨plan, pressed, part⟩ := set_plan reached open_
  rw [pressIfWithdrawn_kept in_] at pressed
  have next : (catchUp index s).build.entries[index + 1]? = s.build.entries[index + 1]? := by
    rw [entries, entriesSet_get, if_neg (by omega)]
  rw [at_, next, entries, entriesSet_next] at plan
  have caught := plan_catchUp entry
  have mismatch := congrArg Build.planMismatch caught
  have state := congrArg Build.state caught
  have mismatch' : (catchUp index s).build.planMismatch = (s.build.planMismatch || decide (e.state = .empty)) := mismatch
  have state' : (catchUp index s).build.state =
      if s.build.state = .building ∧ e.state = .empty then .suspended else s.build.state := state
  rw [mismatch', state'] at plan
  have whole := ends.plan.trans plan
  have stateEnd : (applyAction .set (catchUp index s)).build.state =
      if s.build.state = .building
          ∧ (e.state = .empty ∨ (s.build.entries[index + 1]?).map PlanEntry.state = some .empty) then .suspended
        else s.build.state := by
    have same := congrArg Build.state plan
    refine Eq.trans same ?_
    by_cases building : s.build.state = .building
    · by_cases empty : e.state = .empty
      · simp [building, empty]
      · simp [building, empty]
    · simp [building]
  refine ⟨congrArg Build.index whole, congrArg Build.retry whole, congrArg Build.entries whole, ?_, ?_, ?_,
    fun out weak => ?_⟩
  · have same := congrArg Build.planMismatch whole
    refine Eq.trans same ?_
    change ((s.build.planMismatch || decide _) || decide _) = _
    rw [Bool.or_assoc, ← Bool.decide_or]
  · have same := congrArg Build.state ends.plan
    exact same.trans stateEnd
  · rw [ends.part, part]
    exact catchUp_records index s
  · refine ends.pressing ?_ ?_
    · rw [stateEnd]
      split
      · nofun
      · exact build
    · rw [pressed, mode]
      exact pressed_weak out weak

end

end Sys2Proof.Machine
end

section
/-! PROOF. O24: the SET of the KEY above the progress index, the end of the erector's work, and the statement. -/

namespace Sys2Proof.Machine

open Sys2Proof

/-! ### The notices that the units queue -/

/-- The transmit queue has gained PACE notices alone. -/
def PaceOnly (s t : State) : Prop := ∀ x ∈ t.bus.queue, x ∈ s.bus.queue ∨ noticeKind x.notice = 2

theorem PaceOnly.same {s t : State} (h : t.bus = s.bus) : PaceOnly s t := fun x mem => .inl (by rw [← h]; exact mem)

theorem PaceOnly.trans {s t u : State} (h : PaceOnly s t) (k : PaceOnly t u) : PaceOnly s u := fun x mem =>
  (k x mem).elim (h x) .inr

theorem mem_of_queueAfter {n : TxNotice} {q : List QueueItem} {x : QueueItem} (mem : x ∈ queueAfter n q) :
    x ∈ q ∨ x.notice = n := by
  have inserted : ∀ l : List QueueItem, x ∈ insertNotice n l → x ∈ l ∨ x.notice = n := by
    intro l mem
    rcases mem_insertNotice.1 mem with rfl | mem
    · exact .inr rfl
    · exact .inl mem
  unfold queueAfter at mem
  split at mem
  · exact inserted _ mem
  · split at mem
    · exact (inserted _ mem).imp List.mem_of_mem_eraseP id
    · split at mem
      · refine (inserted _ mem).imp (fun there => ?_) id
        unfold dropNewest at there
        exact List.mem_reverse.1 (List.mem_of_mem_eraseP (List.mem_reverse.1 there))
      · exact .inl mem

theorem paceOnly_unitsEval (lim : Bool) (s : State) : PaceOnly s (unitsEval lim s) := by
  have paced : ∀ (p : Pace) (u : State), PaceOnly u (setPace p u) := by
    intro p u
    have queued : PaceOnly u (enqueue (.pace p) { u with train := { u.train with pace := p } }) := fun x mem =>
      (mem_of_queueAfter mem).imp id fun is => by rw [is]; rfl
    unfold setPace
    dsimp only
    repeat' split
    · exact .same rfl
    · exact queued
    · exact queued
  have train : ∀ u : State, PaceOnly u (trainEval u) := by
    intro u
    unfold trainEval
    split
    · exact (PaceOnly.same rfl).trans (paced _ _)
    · exact .same rfl
  have face : (screwEval (driveEval s)).bus = s.bus := by
    unfold screwEval setScrew pressureBlindEval driveEval
    dsimp only [supportEval]
    repeat' split
    all_goals rfl
  have advance : ∀ u : State, (advanceEval u).bus = u.bus := by
    intro u
    unfold advanceEval
    repeat' split
    all_goals rfl
  have limited : ∀ u : State, (holdsEval (if lim then limitEval u else u)).bus = u.bus := by
    intro u
    split <;> rfl
  exact ((PaceOnly.same face).trans (train _)).trans (.same ((advance _).trans (limited _)))

/-- The end of an event in which the erector unit touches no queue. -/
theorem paceOnly_settle {lim : Bool} {e : State} (quiet : (erectorEval (unitsEval lim e)).bus = (unitsEval lim e).bus) :
    PaceOnly e (settle lim e) := by
  unfold settle
  split
  · refine (((paceOnly_unitsEval lim e).trans (.same quiet)).trans (paceOnly_unitsEval lim _)).trans (.same ?_)
    change (injectionEval _).bus = _
    rw [injectionEval_eq]
  · exact .same rfl

/-- Of the erector unit a close lowers FEEDER MISMATCH, and it queues PACE alone (04 R76). -/
theorem closeRing_rests (r : Nat) (c : OpeningCause) (x : State) :
    (closeRing r c x).erector = { x.erector with feederMismatch := false } ∧ PaceOnly x (closeRing r c x) := by
  have opened : (onNewRing r c x).erector = { x.erector with feederMismatch := false } ∧ (onNewRing r c x).bus = x.bus := by
    have same : (updateRingAdvance x).erector = x.erector ∧ (updateRingAdvance x).bus = x.bus := by
      unfold updateRingAdvance
      split <;> exact ⟨rfl, rfl⟩
    have unit : (onNewRing r c x).erector = { (updateRingAdvance x).erector with feederMismatch := false } := rfl
    have queue : (onNewRing r c x).bus = (updateRingAdvance x).bus := by simp only [onNewRing, judgeOver_bus,
      openUnits_bus, groutSettingsAtClose_bus, storeAndOpen_bus, syncRecord_bus, fixEntriesSet_bus, groutTotals_bus,
      accountSpoil_bus]
    rw [unit, queue, same.1, same.2]
    exact ⟨rfl, rfl⟩
  have judged : ∀ u : State, (judgeLinePressure u).erector = u.erector ∧ (judgeLinePressure u).bus = u.bus := by
    intro u
    unfold judgeLinePressure
    split <;> exact ⟨rfl, rfl⟩
  have line : ∀ u : State, (judgeLinePressure (injectionEval u)).erector = u.erector
      ∧ (judgeLinePressure (injectionEval u)).bus = u.bus := by
    intro u
    obtain ⟨unit, queue⟩ := judged (injectionEval u)
    rw [unit, queue, injectionEval_eq]
    exact ⟨rfl, rfl⟩
  obtain ⟨unit, queue⟩ := line (unitsEval false (onNewRing r c x))
  rw [closeRing_onNewRing]
  refine ⟨?_, ((PaceOnly.same opened.2).trans (paceOnly_unitsEval false _)).trans (.same queue)⟩
  rw [unit, erector_unitsEval, opened.1]

/-! ### The SET of the KEY above the progress index -/

/-- Clause 8: the ring closed after a catch-up to the KEY. -/
theorem key_above {s t : State} {index : Nat} {e : PlanEntry} (entry : s.build.entries[index]? = some e)
    (opened : RingOpened (nextRing (catchUp index s).records.ring) .close (keySet (catchUp index s)) t) :
    t.records.ring = (if s.records.ring = 65535 then 65535 else s.records.ring + 1)
      ∧ t.records.current.cause = .close ∧ t.build.state = .ringOpen ∧ t.build.entries = [] ∧ t.build.index = 0
      ∧ (s.records.ring ≠ 65535 →
          (t.records.history.getLast?).bind (fun r => r.build.map BuildPart.caughtUp)
              = s.records.current.build.map (fun _ => true)
            ∧ (t.records.history.getLast?).bind (fun r => r.build.map BuildPart.entriesSet)
                = s.records.current.build.map (fun _ =>
                    index + 1 + ((s.build.entries.drop (index + 1)).filter (fun p => p.state = .set)).length)) := by
  obtain ⟨there, _⟩ := List.getElem?_eq_some_iff.1 entry
  obtain ⟨entries, at_, _⟩ := entry_catchUp entry
  obtain ⟨_, _, records, _, _, _, set, _⟩ := keySet_kept (y := catchUp index s)
  have ring : (catchUp index s).records.ring = s.records.ring := congrArg RingPart.ring (ring_catchUp index s)
  have number : nextRing s.records.ring = (if s.records.ring = 65535 then 65535 else s.records.ring + 1) := by
    unfold nextRing
    split
    · next last => exact last
    · rfl
  rw [ring] at opened
  refine ⟨opened.ring.trans number, opened.cause, opened.state, opened.entries, opened.index, fun inner => ?_⟩
  have before : (keySet (catchUp index s)).records.ring ≠ 65535 := by rw [records, ring]; exact inner
  have caught := catchUp_records index s
  have flagged := opened.built BuildPart.caughtUp before
  have counted := opened.built BuildPart.entriesSet before
  rw [records] at flagged counted
  refine ⟨flagged.trans caught, counted.trans ?_⟩
  rw [set, at_, entries, entriesSet_next, entriesSet_count there]
  have part := congrArg (Option.map fun _ : Bool =>
    index + 1 + ((s.build.entries.drop (index + 1)).filter (fun p => p.state = .set)).length) caught
  rw [Option.map_map, Option.map_map] at part
  exact part

/-! ### The end of the erector's work -/

section
variable {s : State} (works : s.erector.seq = .awaitingClear ∨ s.erector.seq = .placing)
include works

theorem pressPassed_working {u : State} (erector : u.erector = s.erector) : pressPassed u = u := by
  rcases pressPassed_cases u with same | ⟨_, _, waits, _⟩
  · exact same
  · rw [erector] at waits
    rw [waits] at works
    rcases works with is | is <;> cases is

/-- A sequence at work is left as it stands where the index moves on (04 R73). -/
theorem judgeEmpty_working {x : State} (erector : x.erector = s.erector) :
    (judgeEmpty (movedTo (x.build.index + 1) x)).erector = s.erector
      ∧ (judgeEmpty (movedTo (x.build.index + 1) x)).bus = x.bus := by
  unfold movedTo
  rw [pressPassed_working works (u := moveIndex (x.build.index + 1) x) erector]
  refine ⟨by rw [erector_judgeEmpty, erector_pressIfWithdrawn]; exact erector, ?_⟩
  unfold judgeEmpty
  split
  · rw [suspendBuild_bus]
    exact pressIfWithdrawn_bus _
  · exact pressIfWithdrawn_bus _

theorem catchUp_working (j : Nat) : (catchUp j s).erector = s.erector ∧ (catchUp j s).bus = s.bus := by
  have passed := pressPassed_working works (u := moveIndex j s) rfl
  rw [catchUp_eq]
  unfold caughtTo judgeEmpty
  rw [passed]
  split
  · rw [erector_suspendBuild, suspendBuild_bus]
    exact ⟨erector_pressIfWithdrawn _, pressIfWithdrawn_bus _⟩
  · exact ⟨erector_pressIfWithdrawn _, pressIfWithdrawn_bus _⟩

/-- A sequence whose entry the index has moved past ends the event in STANDBY, without a STEP (04 R73). -/
theorem settle_passed {j : State} {w : Working} (running : j.running = true) (role : j.cfg.roles.erector = true)
    (erector : j.erector = s.erector) (working : s.erector.working = some w) (free : j.view.erectorConflict = false)
    (ring : j.records.ring = w.ring) (past : w.index < j.build.index) :
    (settle false j).erector = { s.erector with seq := .standby, feederEmpty := false }
      ∧ (settle false j).out.erectorEnable = false ∧ PaceOnly j (settle false j) := by
  have unit : (unitsEval false j).erector = s.erector := (erector_unitsEval false j).trans erector
  have free' : (unitsEval false j).view.erectorConflict = false := by
    have same := congrArg (fun b => b.view.erectorConflict) (base_unitsEval false j)
    exact Eq.trans same free
  have ring' : (unitsEval false j).records.ring = w.ring := by
    have same := congrArg RingPart.ring (ring_unitsEval false j)
    exact Eq.trans same ring
  have past' : w.index < (unitsEval false j).build.index := by
    have same := congrArg Build.index (plan_unitsEval false j)
    have index : (unitsEval false j).build.index = j.build.index := same
    omega
  have step : seqStep (unitsEval false j) = setSeq .standby (unitsEval false j)
      ∧ workEnds (unitsEval false j) = true := by
    have passed : passedBy w (unitsEval false j) = true := by simp [passedBy, ring', past']
    have moved : (unitsEval false j).build.index ≠ w.index := by omega
    unfold seqStep workEnds
    rw [unit, working]
    rcases works with is | is
    · rw [is]
      simp [moved]
    · rw [is]
      simp [moved, free', passed]
  have evaluated : erectorEval (unitsEval false j) = setSeq .standby (unitsEval false j) := by
    unfold erectorEval
    rw [if_pos (by rw [roles_unitsEval]; exact role)]
    unfold seqSteps
    rw [if_pos step.2, step.1]
  have ended : (settle false j).erector = { s.erector with seq := .standby, feederEmpty := false } := by
    rw [settle_shape running]
    change (unitsEval false (erectorEval (unitsEval false j))).erector = _
    have set : (setSeq .standby (unitsEval false j)).erector =
        { (unitsEval false j).erector with
          seq := .standby, feederEmpty := (unitsEval false j).erector.feederEmpty && false } := rfl
    rw [erector_unitsEval, evaluated, set, unit, Bool.and_false]
  refine ⟨ended, ?_, paceOnly_settle (by rw [evaluated]; rfl)⟩
  have shown : (settle false j).out.erectorEnable = decide ((settle false j).erector.seq = .placing) := by
    unfold settle
    rw [if_pos running]
    rfl
  rw [shown, ended]
  rfl

/-- The SET of the KEY stands the sequence at work down before the ring closes (04 R73, log 17). -/
theorem settle_keyPassed {y : State} {w : Working} (running : y.running = true) (erector : y.erector = s.erector)
    (working : s.erector.working = some w) (ring : y.records.ring = w.ring) (past : w.index < y.build.index + 1) (r : Nat) :
    (settle false (closeRing r .close (keySet y))).erector =
        { s.erector with seq := .standby, feederEmpty := false, feederMismatch := false }
      ∧ (settle false (closeRing r .close (keySet y))).out.erectorEnable = false
      ∧ PaceOnly y (settle false (closeRing r .close (keySet y))) := by
  have passed : passedBy w (moveIndex (y.build.index + 1) y) = true := by
    have number : w.ring = (moveIndex (y.build.index + 1) y).records.ring := ring.symm
    have index : w.index < (moveIndex (y.build.index + 1) y).build.index := past
    unfold passedBy
    rw [Bool.and_eq_true, decide_eq_true_eq, decide_eq_true_eq]
    exact ⟨number, index⟩
  have down : sequencePassed (moveIndex (y.build.index + 1) y) = standDown (moveIndex (y.build.index + 1) y) := by
    have unit : (moveIndex (y.build.index + 1) y).erector = s.erector := erector
    unfold sequencePassed
    rw [unit, working]
    refine if_pos ?_
    rw [passed]
    rcases works with is | is <;> simp [is]
  have set : (keySet y).erector = { s.erector with seq := .standby, feederEmpty := false } ∧ (keySet y).bus = y.bus := by
    unfold keySet
    rw [down, erector_pressIfWithdrawn, pressIfWithdrawn_bus, ← erector]
    exact ⟨rfl, rfl⟩
  have closed : (closeRing r .close (keySet y)).erector =
        { s.erector with seq := .standby, feederEmpty := false, feederMismatch := false }
      ∧ PaceOnly y (closeRing r .close (keySet y)) := by
    obtain ⟨unit, queue⟩ := closeRing_rests r .close (keySet y)
    exact ⟨by rw [unit, set.1], (PaceOnly.same set.2).trans queue⟩
  have ringOpen : (closeRing r .close (keySet y)).build.state = .ringOpen := by
    rw [closeRing_build, onNewRing_units.2.2.2.2.2.1]
  have idle : (closeRing r .close (keySet y)).build.state ≠ .building := by rw [ringOpen]; nofun
  have standby : (closeRing r .close (keySet y)).erector.seq = .standby := by rw [closed.1]
  have base : baseOf (closeRing r .close (keySet y)) = baseOf y := (base_closeRing _ _ _).trans keySet_kept.2.1
  have runs : (closeRing r .close (keySet y)).running = true := (running_of_base base).trans running
  have ended := (settle_standby (lim := false) standby idle).1.trans closed.1
  have rests :
      erectorEval (unitsEval false (closeRing r .close (keySet y))) = unitsEval false (closeRing r .close (keySet y)) :=
    erectorEval_standby (by rw [erector_unitsEval]; exact standby) (by rw [unitsEval_build_state]; exact idle)
  refine ⟨ended, ?_, closed.2.trans (paceOnly_settle (by rw [rests]))⟩
  have shown : (settle false (closeRing r .close (keySet y))).out.erectorEnable =
      decide ((settle false (closeRing r .close (keySet y))).erector.seq = .placing) := by
    unfold settle
    rw [if_pos runs]
    rfl
  rw [shown, ended]
  rfl

end

/-- The event of an action after which the index stands past the entry being worked (04 R73). -/
theorem action_past {s j : State} {w : Working} (running : s.running = true) (role : s.cfg.roles.erector = true)
    (works : s.erector.seq = .awaitingClear ∨ s.erector.seq = .placing) (working : s.erector.working = some w)
    (free : s.view.erectorConflict = false) (base : baseOf j = baseOf s) (unit : j.erector = s.erector)
    (queue : j.bus = s.bus) (ring : j.records.ring = w.ring) (past : w.index < j.build.index) :
    (settle false (decideRetract j)).erector = { s.erector with seq := .standby, feederEmpty := false }
      ∧ (settle false (decideRetract j)).out.erectorEnable = false ∧ PaceOnly s (settle false (decideRetract j)) := by
  have base' : baseOf (decideRetract j) = baseOf s := (base_decideRetract j).trans base
  have index := congrArg Build.index (plan_decideRetract j)
  have index' : (decideRetract j).build.index = j.build.index := index
  obtain ⟨unit', enable, pace⟩ := settle_passed works (j := decideRetract j) ((running_of_base base').trans running)
    (by rw [cfg_of_base base']; exact role) (by rw [erector_decideRetract]; exact unit) working
    ((congrArg (fun b => b.view.erectorConflict) base').trans free) (by rw [decideRetract_records]; exact ring)
    (by rw [index']; exact past)
  exact ⟨unit', enable, (PaceOnly.same ((decideRetract_bus j).trans queue)).trans pace⟩

/-- The station at whose progress index a STEP is applied: the station itself, or after its catch-up (03 R56, R57). -/
theorem step_applied {s : State} {a : StepAction} {index : Nat} {e : PlanEntry} (build : s.build.state ≠ .ringOpen)
    (works : s.erector.seq = .awaitingClear ∨ s.erector.seq = .placing) (entry : s.build.entries[index]? = some e)
    (moves : (s.build.index = index ∧ a = .set) ∨ s.build.index < index) :
    ∃ c : State, judgeStep a s.records.ring index s = applyAction a c ∧ baseOf c = baseOf s ∧ c.erector = s.erector
      ∧ c.bus = s.bus ∧ c.records.ring = s.records.ring ∧ c.build.index = index
      ∧ c.build.entries[c.build.index]? = some e ∧ (a ≠ .set → withdrawn c = false) := by
  rcases moves with ⟨rfl, rfl⟩ | ahead
  · exact ⟨s, judgeStep_here build entry, rfl, rfl, rfl, rfl, rfl, entry, fun no => absurd rfl no⟩
  · obtain ⟨unit, queue⟩ := catchUp_working works index
    obtain ⟨_, at_, reached⟩ := entry_catchUp entry
    exact ⟨catchUp index s, judgeStep_above build ahead entry, base_catchUp index s, unit, queue,
      congrArg RingPart.ring (ring_catchUp index s), at_, reached, fun _ => (catchUp_mode index s).2⟩

/-- Clause 9: a STEP that moves the index past the entry being worked (04 R73). -/
theorem step_past {s : State} {a : StepAction} {index : Nat} {e : PlanEntry} {w : Working} (ready : s.life = .ready)
    (role : s.cfg.roles.erector = true) (building : s.build.state = .building)
    (works : s.erector.seq = .awaitingClear ∨ s.erector.seq = .placing) (work : atWork s w)
    (entry : s.build.entries[index]? = some e) (moves : (s.build.index = index ∧ a = .set) ∨ s.build.index < index) :
    (settle false (takeStep a s.records.ring index s)).erector =
        { s.erector with
          seq := .standby, feederEmpty := false
          feederMismatch := (settle false (takeStep a s.records.ring index s)).erector.feederMismatch }
      ∧ (settle false (takeStep a s.records.ring index s)).out.erectorEnable = false
      ∧ PaceOnly s (settle false (takeStep a s.records.ring index s)) := by
  obtain ⟨working, free, _, ring, number⟩ := work
  obtain ⟨c, acts, base, unit, queue, ring', at_, reached, in_⟩ :=
    step_applied (a := a) (by rw [building]; nofun) works entry moves
  have past := moves.imp (fun h => h.1) id
  have running := running_of_ready ready
  have done_ {j : State} (taken : applyAction a c = j) (base' : baseOf j = baseOf s) (unit' : j.erector = s.erector)
      (queue' : j.bus = s.bus) (ring'' : j.records.ring = s.records.ring) (past' : w.index < j.build.index) :=
    taken ▸ action_past running role works working free base' unit' queue' (ring''.trans ring) past'
  unfold takeStep
  rw [acts]
  by_cases set : a = .set
  · subst set
    by_cases key : e.key = true
    · have taken := applyAction_key reached key
      have ringOpen : (applyAction .set c).build.state = .ringOpen := by
        rw [taken, closeRing_build, onNewRing_units.2.2.2.2.2.1]
      obtain ⟨ended, enable, pace⟩ := settle_keyPassed works ((running_of_base base).trans running) unit working
        (ring'.trans ring) (by omega) (nextRing c.records.ring)
      rw [decideRetract_ringOpen ringOpen, taken]
      exact ⟨by rw [ended], enable, (PaceOnly.same queue).trans pace⟩
    · have taken : applyAction .set c = judgeEmpty (movedTo (c.build.index + 1) c) := by
        unfold applyAction planAt
        rw [reached]
        exact setEntry_movedTo (by simpa using key) c
      obtain ⟨unit', queue'⟩ := judgeEmpty_working works (x := c) unit
      obtain ⟨plan, _⟩ := set_plan reached (by simpa using key)
      rw [taken] at plan
      have index := congrArg Build.index plan
      have index' : (judgeEmpty (movedTo (c.build.index + 1) c)).build.index = c.build.index + 1 := index
      have figures : ringOf (judgeEmpty (movedTo (c.build.index + 1) c)) = ringOf c := by
        unfold movedTo
        rw [ring_judgeEmpty, ring_pressIfWithdrawn, ring_pressPassed, ring_moveIndex]
      have base' : baseOf (judgeEmpty (movedTo (c.build.index + 1) c)) = baseOf c := by
        rw [← taken, base_applyAction]
      obtain ⟨ended, enable, pace⟩ := done_ taken (base'.trans base) unit' (queue'.trans queue)
        ((congrArg RingPart.ring figures).trans ring') (by rw [index']; omega)
      exact ⟨by rw [ended], enable, pace⟩
  · have taken := applyAction_caught reached set (in_ set)
    have ahead : w.index < index := by
      rcases moves with ⟨_, no⟩ | ahead
      · exact absurd no set
      · omega
    have kept : ∃ j, applyAction a c = j ∧ baseOf j = baseOf c ∧ j.erector = c.erector ∧ j.bus = c.bus
        ∧ j.records.ring = c.records.ring ∧ j.build.index = c.build.index := by
      rw [taken]
      split
      · exact ⟨_, rfl, rfl, rfl, rfl, rfl, rfl⟩
      · exact ⟨_, rfl, rfl, rfl, rfl, rfl, rfl⟩
    obtain ⟨j, is, base', unit', queue', ring'', index'⟩ := kept
    obtain ⟨ended, enable, pace⟩ := done_ is (base'.trans base) (unit'.trans unit) (queue'.trans queue)
      (ring''.trans ring') (by rw [index', at_]; exact ahead)
    exact ⟨by rw [ended], enable, pace⟩

/-! ### The statement -/

/-- Settles O24: the clauses one by one, as the STEP is judged (03 R56). -/
theorem stepNoticesApplied : Obligations.StepNoticesApplied := by
  refine ⟨fun src a e s ready below foreign absent build entry other works => ?_,
    fun src a ring index s ready below foreign ringOpen => ?_,
    fun src a ring index s ready below foreign absent build old => ?_,
    fun src a ring index s ready below foreign absent build new => ?_,
    fun src e s ready below foreign absent build entry open_ => ?_,
    fun src index a e s ready below foreign absent build ahead entry other => ?_,
    fun src index e s ready below foreign absent build ahead entry open_ => ?_,
    fun src index e s ready below foreign build ahead entry key => ?_,
    fun src index a e w s ready below foreign role building works work entry moves => ?_,
    fun src a ring index s foreign outside => ?_⟩
  · obtain ⟨t, run, base, ends⟩ :=
      step_taken (a := a) (ring := s.records.ring) (index := s.build.index) ready below foreign absent
    rw [judgeStep_here build entry] at ends
    obtain ⟨entries, index, state, claimed, pressed⟩ := step_here build entry other works ends
    exact ⟨t, run, entries, index, state, base, ends.ring.trans (ring_applyAction other s), claimed,
      fun placed cover => pressed (.inl placed) cover, fun release unplaced suspended cover =>
        pressed (.inr ⟨release, unplaced, suspended⟩) cover⟩
  · have judged : takeStep a ring index s = s := by
      have same : judgeStep a ring index s = s := if_pos ringOpen
      unfold takeStep
      rw [same, decideRetract_ringOpen ringOpen]
    have run := exec_stepArrival a ring index ready below foreign
    rw [judged] at run
    exact ⟨_, run, settle_frame false s, settle_plan_ringOpen ringOpen⟩
  · obtain ⟨t, run, base, ends⟩ := step_taken (a := a) (ring := ring) (index := index) ready below foreign absent
    rw [judgeStep_ignored build old] at ends
    exact ⟨t, run, ends.plan, base, ends.ring⟩
  · obtain ⟨t, run, base, ends⟩ := step_taken (a := a) (ring := ring) (index := index) ready below foreign absent
    rw [judgeStep_mismatched build new] at ends
    exact ⟨t, run, ends.plan, base, ends.ring⟩
  · obtain ⟨t, run, base, ends⟩ :=
      step_taken (a := .set) (ring := s.records.ring) (index := s.build.index) ready below foreign absent
    rw [judgeStep_here build entry] at ends
    obtain ⟨plan, mode, _⟩ := set_plan entry open_
    have whole := ends.plan.trans plan
    have ring : ringOf (applyAction .set s) = ringOf s := by
      unfold applyAction planAt
      rw [entry]
      change ringOf (setEntry e s) = _
      rw [setEntry_movedTo open_]
      unfold movedTo
      rw [ring_judgeEmpty, ring_pressIfWithdrawn, ring_pressPassed, ring_moveIndex]
    have built : (applyAction .set s).build.state ≠ .ringOpen := by
      have state := congrArg Build.state plan
      intro is
      have state' := is.symm.trans state
      dsimp only at state'
      split at state'
      · cases state'
      · exact build state'.symm
    exact ⟨t, run, congrArg Build.index whole, congrArg Build.retry whole, congrArg Build.entries whole,
      ⟨congrArg Build.planMismatch whole, congrArg Build.state whole⟩,
      fun out weak => ends.pressing built (mode.trans (pressed_weak out weak)), base, ends.ring.trans ring⟩
  · obtain ⟨t, run, base, ends⟩ := step_taken (a := a) (ring := s.records.ring) (index := index) ready below foreign absent
    rw [judgeStep_above build ahead entry] at ends
    obtain ⟨at_, retry, entries, mismatch, state, caught, pressed⟩ := step_above build entry other ends
    exact ⟨t, run, at_, retry, entries, mismatch, state, caught, pressed, base,
      ends.ring.trans ((ring_applyAction other _).trans (ring_catchUp index s))⟩
  · obtain ⟨t, run, base, ends⟩ :=
      step_taken (a := .set) (ring := s.records.ring) (index := index) ready below foreign absent
    rw [judgeStep_above build ahead entry] at ends
    obtain ⟨at_, retry, entries, mismatch, state, caught, pressed⟩ := set_above build entry open_ ends
    have ring : ringOf (applyAction .set (catchUp index s)) = ringOf s := by
      obtain ⟨_, _, reached⟩ := entry_catchUp entry
      unfold applyAction planAt
      rw [reached]
      change ringOf (setEntry e _) = _
      rw [setEntry_movedTo open_]
      unfold movedTo
      rw [ring_judgeEmpty, ring_pressIfWithdrawn, ring_pressPassed, ring_moveIndex, ring_catchUp]
    exact ⟨t, run, at_, retry, entries, ⟨mismatch, state⟩, caught, pressed, base, ends.ring.trans ring⟩
  · obtain ⟨_, _, reached⟩ := entry_catchUp entry
    have opened := keySet_end (y := catchUp index s)
      ((running_of_base (base_catchUp index s)).trans (running_of_ready ready)) reached key
    have run := exec_stepArrival .set s.records.ring index ready below foreign
    unfold takeStep at run
    rw [judgeStep_above build ahead entry] at run
    exact ⟨_, run, key_above entry opened⟩
  · exact ⟨_, exec_stepArrival a _ index ready below foreign, step_past ready role building works work entry moves⟩
  · have arrives : stepArrival src a ring index s = s := by
      unfold stepArrival
      rw [if_neg foreign]
      refine if_neg ?_
      rcases outside with unready | above
      · simp [unready]
      · simp [takenSource, Nat.not_lt.2 above]
    exact congrArg Host.Outcome.next arrives

end Sys2Proof.Machine
end

section
/-! PROOF. O56 fails. SequenceSettled asks nothing of a station that is not running, and the reading of the memory takes a
STARTING station to LISTENING with plan and erector unit as they stand (12 R165): one that stands in PLACING with no piece in
its queue stays there, where 04 R72 wants the head piece to match the entry. No reset leaves such a station (04 R65), so the
step reached here starts outside the runs; the statement is about every state that meets the property. -/

namespace Sys2Proof.Machine

open Sys2Proof Sys2Proof.Tests

/-- A memory that is read without fault at a station that carries ERECTOR. -/
def erectorMemory : List Byte := (goodMemory.set 2 240).set 31 252

/-- An entry worked on the ring of a reset, with no sector to wait for. -/
def workUncovered : Working := { ring := State.reset.records.ring, index := 0, piece := 3, key := false, cover := [] }

/-- A STARTING station that places a piece from an empty queue, with the reading of its memory waiting. -/
def placingAtStart : State :=
  { State.reset with
    build := { State.reset.build with state := .building, entries := [planEntryAs .claimed] }
    erector := { State.reset.erector with seq := .placing, working := some workUncovered }
    pending := [.configurationRead 2 (erectorMemory.map some)] }

/-- The station once its memory is read. -/
def placingOnceRead : State := after (.configurationRead 2 (erectorMemory.map some)) { placingAtStart with pending := [] }

theorem step_placingAtStart : step placingAtStart = .next placingOnceRead := rfl

theorem placingAtStart_timers : TimersFollowLife placingAtStart := by
  unfold TimersFollowLife
  decide

/-- The property asks nothing of a station that is not running. -/
theorem placingAtStart_settled : SequenceSettled placingAtStart := fun running => absurd running (by decide)

/-- Read in, the station is LISTENING in PLACING with an empty queue. -/
theorem placingOnceRead_places : placingOnceRead.running = true ∧ placingOnceRead.cfg.roles.erector = true
    ∧ placingOnceRead.erector.seq = .placing ∧ placingOnceRead.erector.queue = [] := by decide

/-- A running erector station in PLACING with an empty queue does not meet the property (04 R72). -/
theorem not_settled_of_placing {s : State} (running : s.running = true) (role : s.cfg.roles.erector = true)
    (placing : s.erector.seq = .placing) (empty : s.erector.queue = []) : ¬SequenceSettled s := by
  intro settled
  have stands := settled running role
  rw [placing] at stands
  obtain ⟨w, _, _, head⟩ := stands
  rw [empty] at head
  cases head

/-- Refutes O56, by its first part: `placingAtStart` meets the property and a step leaves it at `placingOnceRead`, which
does not. -/
theorem not_erectorSequenceSettled : ¬Obligations.ErectorSequenceSettled := by
  rintro ⟨kept, _⟩
  obtain ⟨running, role, placing, empty⟩ := placingOnceRead_places
  exact not_settled_of_placing running role placing empty
    (kept placingAtStart placingOnceRead placingAtStart_timers placingAtStart_settled step_placingAtStart)

end Sys2Proof.Machine
end
